-- ==== Sys2Proof/Word.lean ====
section
/-! DEFINITION. Bytes and eight-entry arrays (00_scope.md section 4.1, 20_memory.md R20, R23). -/

namespace Sys2Proof

/-- A byte: an unsigned integer in 0..255 (00_scope.md section 4.1). -/
abbrev Byte := BitVec 8

/-- An array of eight entries, the only indexable object of this hardware (20_memory.md R20). -/
@[ext]
structure Array8 (α : Type) where
  a0 : α
  a1 : α
  a2 : α
  a3 : α
  a4 : α
  a5 : α
  a6 : α
  a7 : α
  deriving DecidableEq, Repr

/-- A frame: exactly eight bytes, index 0 first (20_memory.md R21, R24). -/
abbrev Frame := Array8 Byte

namespace Array8

/-- `a[i]`; no index falls outside 0..7 (R23). -/
def get {α : Type} (a : Array8 α) : Fin 8 → α
  | 0 => a.a0
  | 1 => a.a1
  | 2 => a.a2
  | 3 => a.a3
  | 4 => a.a4
  | 5 => a.a5
  | 6 => a.a6
  | 7 => a.a7

/-- `a[i] <- v`. -/
def set {α : Type} (a : Array8 α) (i : Fin 8) (v : α) : Array8 α :=
  match i with
  | 0 => { a with a0 := v }
  | 1 => { a with a1 := v }
  | 2 => { a with a2 := v }
  | 3 => { a with a3 := v }
  | 4 => { a with a4 := v }
  | 5 => { a with a5 := v }
  | 6 => { a with a6 := v }
  | 7 => { a with a7 := v }

/-- The array whose entry `i` is `f i`. -/
def ofFn {α : Type} (f : Fin 8 → α) : Array8 α :=
  ⟨f 0, f 1, f 2, f 3, f 4, f 5, f 6, f 7⟩

/-- The entries in index order. -/
def toList {α : Type} (a : Array8 α) : List α :=
  [a.a0, a.a1, a.a2, a.a3, a.a4, a.a5, a.a6, a.a7]

end Array8

/-- The indices of the source's loops "For i in 0..8", in increasing order (00_scope.md section 4.1). -/
def indices : List (Fin 8) := [0, 1, 2, 3, 4, 5, 6, 7]

end Sys2Proof
end

