-- ==== Sys2Proof/Config.lean ====
section
/-! DEFINITION. What is fixed for this hardware: the hard-wired tables (10_state.md R7 to R9, R11), the constants of
the frame format and of the host's protocol, and the two values the spec leaves open. -/

namespace Sys2Proof

/-- The two numbers that name a USB device (60_exceptions.md R78). -/
structure UsbIds where
  vid : BitVec 16
  pid : BitVec 16
  deriving DecidableEq, Repr

/-- The parameters of a control transfer, direction OUT (R78). -/
structure ControlTransfer where
  requestType : Byte
  request     : Byte
  value       : BitVec 16
  index       : BitVec 16
  payload     : Frame
  deriving DecidableEq, Repr

namespace Config

/-- `KEY` (R7): hard-wired (00_scope.md R6). -/
def KEY : Frame := ⟨0xC4, 0xC6, 0xC0, 0x92, 0x40, 0x23, 0xDC, 0x96⟩

/-- `CSTATE` (R8), "Htemp99e" byte for byte: a constant despite its name. -/
def CSTATE : Frame := ⟨0x48, 0x74, 0x65, 0x6D, 0x70, 0x39, 0x39, 0x65⟩

/-- `SHUF` (R9). -/
def SHUF : Array8 (Fin 8) := ⟨2, 4, 0, 7, 1, 6, 5, 3⟩

/-- The terminator byte of a valid frame (41_validate.md R55). -/
def TERMINATOR : Byte := 0x0D

/-- The op byte of a temperature frame (30_encoding.md R35). -/
def OP_TEMP : Byte := 0x42

/-- The op byte of a CO2 frame (R35). -/
def OP_CO2 : Byte := 0x50

/-- The default vendor and product id (R78). -/
def defaultIds : UsbIds := ⟨0x04D9, 0xA052⟩

/-- The handshake control transfer; its payload is the key (R78). -/
def handshake : ControlTransfer := ⟨0x21, 0x09, 0x0300, 0x0000, KEY⟩

/-- Frame size in bytes, of the initial transfer too (60_exceptions.md R74). -/
def frameSize : Nat := 8

/-- How many transfers may be in flight while polling (R74). -/
def pollWindow : Nat := 8

/-- The transport's buffer size in bytes (R74). -/
def transferBuffer : Nat := 64

/-- Free value: which way an exact tie of the temperature's third decimal rounds, for each 16-bit value
(`ROUND2`: 92_eei_decisions.md D18, 93_implementation_defined.md U9). DESIGN CHOICE, safe: log 9. -/
opaque tieRoundsUp : BitVec 16 → Bool

/-- Free value: whether the data of the initial 8-byte transfer is handled as a frame
(93_implementation_defined.md U10, 91_not_in_source.md N10). DESIGN CHOICE, safe: log 10. -/
opaque initialDataIsFrame : Bool

end Config

end Sys2Proof
end

