-- ==== Sys2Proof/Syntax.lean ====
section
/-! DEFINITION. The two operations of the core, the four rows of the opcode table, and the two formats in which a row
is presented (30_encoding.md R32, R41). -/

namespace Sys2Proof

/-- The core's operations; there are exactly two (00_scope.md R3). -/
inductive Op where
  | decrypt
  | validate
  deriving DecidableEq, Repr

/-- A request to the core: an operation and an operand of exactly eight bytes (R32). -/
structure Request where
  op      : Op
  operand : Frame
  deriving DecidableEq, Repr

/-- The bytes of a DecodedFrame that its row does not fix: every byte but `op` and the terminator (R31). -/
structure FrameBody where
  valueHi  : Byte
  valueLo  : Byte
  checksum : Byte
  /-- bytes 5 to 7 have no name and no meaning (R37) -/
  b5 : Byte
  b6 : Byte
  b7 : Byte
  deriving DecidableEq, Repr

/-- One constructor per row of spec/opcode_table.json. The first two are the core's operations; the last two are the
context rows, decoded frames that the consumer decodes (R35, R41). -/
inductive Instr where
  | decrypt   (frame : Frame)
  | validate  (decoded : Frame)
  | frameTemp (body : FrameBody)
  | frameCo2  (body : FrameBody)
  deriving DecidableEq, Repr

/-- What carries a row: format `CMD` is the 65-bit request word, format `DFRAME` the 64-bit DecodedFrame (R41). -/
inductive Wire where
  | command (word : BitVec 65)
  | dframe  (word : BitVec 64)
  deriving DecidableEq, Repr

end Sys2Proof
end

