-- ==== Sys2Proof/WellFormed.lean ====
section
/-! DEFINITION. Which instructions are well formed. Every operand of a request is legal (30_encoding.md R38); a context
row carries the constraint "checksum == (op + valueHi + valueLo) mod 256" (R41, opcode_table.json). -/

namespace Sys2Proof

/-- The constraint of the context rows: byte addition is addition modulo 256. -/
def FrameBody.checksumHolds (op : Byte) (b : FrameBody) : Bool :=
  b.checksum == op + b.valueHi + b.valueLo

/-- An instruction is well formed when it meets its row's constraint. -/
def Instr.wellFormed : Instr → Bool
  | .decrypt _ => true
  | .validate _ => true
  | .frameTemp b => b.checksumHolds Config.OP_TEMP
  | .frameCo2 b => b.checksumHolds Config.OP_CO2

end Sys2Proof
end

