-- ==== Sys2Proof/Decode.lean ====
section
/-! DEFINITION. From words to instructions, total and rejecting by name, and back (20_memory.md R28, 30_encoding.md
R30 to R33, R38, R41). -/

namespace Sys2Proof

/-- Why the decoder gives no row. -/
inductive DecodeError where
  /-- a decoded frame whose byte 4 is not the terminator: no `DFRAME` row matches (R41) -/
  | noTerminator (b : Byte)
  /-- a decoded frame with one of the 254 other op bytes: no row, and no error of the frame (R36) -/
  | unlistedOp (op : Byte)
  /-- the number of bytes is that of neither format (20_memory.md R24) -/
  | wrongLength (n : Nat)
  /-- a byte laid out for `op_sel` that is neither 0 nor 1: the field has one bit (R32) -/
  | selectTooWide (b : Byte)
  deriving DecidableEq, Repr

/-- `BE64`: byte 0 is the most significant byte of the word (R28). -/
def packFrame (a : Frame) : BitVec 64 :=
  a.a0 ++ a.a1 ++ a.a2 ++ a.a3 ++ a.a4 ++ a.a5 ++ a.a6 ++ a.a7

/-- `a[i] = w[63-8i : 56-8i]` (R28). -/
def unpackFrame (w : BitVec 64) : Frame :=
  Array8.ofFn fun i => w.extractLsb' (56 - 8 * i.val) 8

/-- `op_sel` (R32): 0 selects `DECRYPT`, 1 selects `VALIDATE`. -/
def Op.select : Op → BitVec 1
  | .decrypt => 0
  | .validate => 1

/-- The request word: `op_sel` in bit 64, `din` in bits 63..0 (R32). -/
def encodeRequest (r : Request) : BitVec 65 :=
  r.op.select ++ packFrame r.operand

/-- Every request word is a request: both values of `op_sel` are operations and every `din` is legal (R38). -/
def decodeRequest (w : BitVec 65) : Request :=
  { op := if w.getLsbD 64 then .validate else .decrypt
    operand := unpackFrame (w.extractLsb' 0 64) }

/-- The DecodedFrame of a context row (R31). -/
def FrameBody.toFrame (op : Byte) (b : FrameBody) : Frame :=
  ⟨op, b.valueHi, b.valueLo, b.checksum, Config.TERMINATOR, b.b5, b.b6, b.b7⟩

/-- The unfixed bytes of a DecodedFrame (R31). -/
def FrameBody.ofFrame (f : Frame) : FrameBody :=
  ⟨f.a1, f.a2, f.a3, f.a5, f.a6, f.a7⟩

/-- The core's instruction that a request is. -/
def Request.toInstr (r : Request) : Instr :=
  match r.op with
  | .decrypt => .decrypt r.operand
  | .validate => .validate r.operand

/-- The `DFRAME` rows: byte 4 is the terminator and byte 0 is one of the two documented op-codes (R41). The checksum is
no part of the bit pattern; it is the row's constraint (WellFormed). -/
def decodeDframe (w : BitVec 64) : Except DecodeError Instr :=
  let f := unpackFrame w
  if f.a4 ≠ Config.TERMINATOR then .error (.noTerminator f.a4)
  else if f.a0 = Config.OP_TEMP then .ok (.frameTemp (FrameBody.ofFrame f))
  else if f.a0 = Config.OP_CO2 then .ok (.frameCo2 (FrameBody.ofFrame f))
  else .error (.unlistedOp f.a0)

/-- The decoder. -/
def decode : Wire → Except DecodeError Instr
  | .command w => .ok (decodeRequest w).toInstr
  | .dframe w => decodeDframe w

/-- The words of an instruction. -/
def encode : Instr → Wire
  | .decrypt frame => .command (encodeRequest ⟨.decrypt, frame⟩)
  | .validate decoded => .command (encodeRequest ⟨.validate, decoded⟩)
  | .frameTemp b => .dframe (packFrame (b.toFrame Config.OP_TEMP))
  | .frameCo2 b => .dframe (packFrame (b.toFrame Config.OP_CO2))

/-- Bytes, most significant first, as what they carry: eight bytes are a DecodedFrame in index order, nine are `op_sel`
and the eight operand bytes. DESIGN CHOICE, safe: the spec gives no byte layout of a request (log 6). -/
def wireOfBytes : List Byte → Except DecodeError Wire
  | [b0, b1, b2, b3, b4, b5, b6, b7] => .ok (.dframe (packFrame ⟨b0, b1, b2, b3, b4, b5, b6, b7⟩))
  | [sel, b0, b1, b2, b3, b4, b5, b6, b7] =>
    if sel = 0 then .ok (.command (encodeRequest ⟨.decrypt, ⟨b0, b1, b2, b3, b4, b5, b6, b7⟩⟩))
    else if sel = 1 then .ok (.command (encodeRequest ⟨.validate, ⟨b0, b1, b2, b3, b4, b5, b6, b7⟩⟩))
    else .error (.selectTooWide sel)
  | bytes => .error (.wrongLength bytes.length)

/-- The decoder on bytes: total, and it rejects by name. -/
def decodeBytes (bytes : List Byte) : Except DecodeError Instr :=
  match wireOfBytes bytes with
  | .ok w => decode w
  | .error e => .error e

/-- A number of the opcode table's bit numbering, laid out in whole bytes, most significant first (log 6). -/
def bytesOfTableWord (nbits w : Nat) : List Byte :=
  let n := (nbits + 7) / 8
  (List.range n).map fun k => BitVec.ofNat 8 (w >>> (8 * (n - 1 - k)))

/-- The carrier of a table word: 65 bits (nine bytes) are a request, 64 bits a DecodedFrame. -/
def wireOfTableWord (nbits w : Nat) : Except DecodeError Wire :=
  wireOfBytes (bytesOfTableWord nbits w)

/-- The instruction the decoder reads from an opcode-table word. -/
def decodeTableWord (nbits w : Nat) : Option Instr :=
  match decodeBytes (bytesOfTableWord nbits w) with
  | .ok i => some i
  | .error _ => none

/-- The two formats of the opcode table (R41). -/
inductive Format where
  | cmd
  | dframe
  deriving DecidableEq, Repr

/-- A row of the opcode table: a word belongs to the row when the bits under `mask` are `pattern` (R41). -/
structure Row where
  mnemonic : String
  format   : Format
  width    : Nat
  pattern  : Nat
  mask     : Nat
  deriving DecidableEq, Repr

/-- `DECRYPT`: `op_sel` is 0. -/
def Row.decrypt : Row := ⟨"DECRYPT", .cmd, 65, 0x00000000000000000, 0x10000000000000000⟩

/-- `VALIDATE`: `op_sel` is 1. -/
def Row.validate : Row := ⟨"VALIDATE", .cmd, 65, 0x10000000000000000, 0x10000000000000000⟩

/-- `FRAME.TEMP`: byte 0 is 0x42 and byte 4 is 0x0D. -/
def Row.frameTemp : Row := ⟨"FRAME.TEMP", .dframe, 64, 0x420000000D000000, 0xFF000000FF000000⟩

/-- `FRAME.CO2`: byte 0 is 0x50 and byte 4 is 0x0D. -/
def Row.frameCo2 : Row := ⟨"FRAME.CO2", .dframe, 64, 0x500000000D000000, 0xFF000000FF000000⟩

/-- The opcode table. -/
def opcodeTable : List Row := [Row.decrypt, Row.validate, Row.frameTemp, Row.frameCo2]

/-- The row an instruction belongs to. -/
def Instr.row : Instr → Row
  | .decrypt _ => Row.decrypt
  | .validate _ => Row.validate
  | .frameTemp _ => Row.frameTemp
  | .frameCo2 _ => Row.frameCo2

/-- The format of a carrier. -/
def Wire.format : Wire → Format
  | .command _ => .cmd
  | .dframe _ => .dframe

/-- The word of a carrier as a number of the table's bit numbering. -/
def Wire.toNat : Wire → Nat
  | .command w => w.toNat
  | .dframe w => w.toNat

/-- A carrier belongs to a row. -/
def Row.covers (r : Row) (w : Wire) : Bool :=
  w.format == r.format && (w.toNat &&& r.mask == r.pattern)

end Sys2Proof
end

