-- ==== Sys2Proof/Machine/State.lean ====
section
/-! DEFINITION. The state of the machine as plain data: the request in progress, what the host and the consumer hold,
what the outside has done and not been answered, and the records a run leaves behind (10_state.md section 4,
42_context_frame_consumer.md R59, 60_exceptions.md sections 2 and 3, 70_reset_and_hazards.md R92). The core itself
holds no value from one operation to the next (10_state.md R14); its hard-wired tables are constants (Config). -/

namespace Sys2Proof.Machine

/-- A response carries only the part its operation drives (30_encoding.md R33): `dout`, as the eight bytes of
`DECRYPT`'s result, or `valid`, the verdict bit of `VALIDATE`. -/
inductive Response where
  | frame   (dout : Frame)
  | verdict (valid : Bool)
  deriving DecidableEq, Repr

/-- A request and its response (70_reset_and_hazards.md R92). -/
structure Transaction where
  request  : Request
  response : Response
  deriving DecidableEq, Repr

/-- The five error kinds of the driver; none has a number (60_exceptions.md R68). -/
inductive ErrorKind where
  | deviceNotFound
  | interfaceNotFound
  | controlTransferError
  | endpointTransferError
  | checksumError
  deriving DecidableEq, Repr

/-- The consumer's Reading (42_context_frame_consumer.md R59). A field is `none` while it is unset. The temperature is
held as whole hundredths of a degree Celsius (log 9). -/
structure Reading where
  co2          : Option (BitVec 16)
  temperatureC : Option Int
  deriving DecidableEq, Repr

/-- Both fields unset: the state `Empty` (R59). -/
def Reading.empty : Reading := ⟨none, none⟩

/-- Both fields set: the state `Complete` (R59, R64). -/
def Reading.complete (r : Reading) : Bool := r.temperatureC.isSome && r.co2.isSome

/-- What the host hands back to whoever called it. -/
inductive HostResult where
  /-- `connect` gave a session (60_exceptions.md R78) -/
  | connected
  /-- `connect` failed (R78) -/
  | connectFailed (e : ErrorKind)
  /-- `transfer` succeeded with a Reading (R75) -/
  | completed (r : Reading)
  /-- `transfer` failed (R68, R71) -/
  | transferFailed (e : ErrorKind)
  /-- a decoded frame presented while no transfer was outstanding was not valid (41_validate.md R58, log 20) -/
  | rejected (e : ErrorKind)
  /-- `disconnect` ended; each flag says whether that step succeeded (R79, log 21) -/
  | disconnected (releaseOk closeOk : Bool)
  deriving DecidableEq, Repr

/-- What the host does towards the USB transport and its caller, in the order it does it (60_exceptions.md R71, R74,
R78, R79). -/
inductive HostAction where
  | locateDevice (ids : UsbIds)
  | openDevice
  | selectInterface (n : Nat)
  | controlTransfer (t : ControlTransfer)
  | claimInterface
  | bindEndpoint (n : Nat)
  | initialTransfer (bytes : Nat)
  | startPolling (window buffer : Nat)
  | stopPolling
  | releaseInterface
  | closeDevice
  | report (r : HostResult)
  deriving DecidableEq, Repr

/-- A session: the device it is with, the interface claimed and the endpoint bound, both the first (R78). -/
structure Session where
  ids       : UsbIds
  interface : Nat
  endpoint  : Nat
  deriving DecidableEq, Repr

/-- What the transport answers to the steps of `connect` that can fail (R78). -/
structure ConnectAnswers where
  devicePresent    : Bool
  interfacePresent : Bool
  controlOk        : Bool
  deriving DecidableEq, Repr

/-- The calls of the application (R74, R78, R79), with the transport's answers to the steps they take. -/
inductive Call where
  | connect (ids : Option UsbIds) (answers : ConnectAnswers)
  | transfer
  | disconnect (releaseOk closeOk : Bool)
  deriving DecidableEq, Repr

/-- What the outside world does to the host (60_exceptions.md R73, R80). -/
inductive Input where
  /-- a bare request for the core: a line of a program (30_encoding.md R39, 70_reset_and_hazards.md R92) -/
  | request (word : BitVec 65)
  | call (c : Call)
  /-- the polled endpoint delivered one unit (R75) -/
  | frame (bytes : List Byte)
  /-- the data of the initial transfer that primes the endpoint (R74) -/
  | initialData (bytes : List Byte)
  /-- a transport error event at the polled endpoint (R68) -/
  | transportError
  deriving DecidableEq, Repr

/-- Where the host stands with the frame it is handling (60_exceptions.md R75). -/
inductive HostPhase where
  /-- no transfer is outstanding (R76) -/
  | idle
  /-- a transfer is outstanding and the host waits for an event of the polled endpoint -/
  | polling
  /-- `DECRYPT` of this raw frame was requested -/
  | awaitDecrypt (raw : Frame)
  /-- `VALIDATE` of this decoded frame was requested -/
  | awaitVerdict (decoded : Frame)
  /-- the validated frame was given to the consumer -/
  | ingesting
  deriving DecidableEq, Repr

/-- The machine: the core's port, the consumer, the host and the session. -/
structure State where
  /-- a reset has arrived and is not yet taken (70_reset_and_hazards.md R84) -/
  resetPending : Bool
  /-- the request word of the operation in progress; `none` when the core is idle (20_memory.md R26) -/
  port : Option (BitVec 65)
  /-- the decoded frame handed to the consumer (42_context_frame_consumer.md R65) -/
  inbox : Option (BitVec 64)
  /-- the response the host holds and has not acted on (log 3) -/
  received : Option Response
  /-- every transaction so far, oldest first (R92, log 3) -/
  transactions : List Transaction
  phase : HostPhase
  /-- whether the endpoint is being polled (60_exceptions.md R71) -/
  polling : Bool
  reading : Reading
  session : Option Session
  /-- what the outside has done and the host has not taken, in arrival order (20_memory.md R25) -/
  inputs : List Input
  /-- what the host has done, oldest first -/
  actions : List HostAction
  deriving DecidableEq, Repr

/-- The faults of the machine: none. Nobody raises one, which is what the spec says: "It has no error response, raises
no exception and refuses no operand" (40_decrypt.md R46), "The core raises no synchronous exception" (60_exceptions.md
R67), "No fault, no stuck state" (92_eei_decisions.md D20). Log 5. -/
inductive Fault where
  deriving DecidableEq, Repr

/-- The refusals of the machine. All but the first stand at its boundary (92_eei_decisions.md D20). -/
inductive Refusal where
  /-- raised by `exec` for an instruction without a meaning: none is left; safe -/
  | notModelled (mnemonic : String)
  /-- raised by `frameOfBytes`, for a delivery that is not eight bytes (20_memory.md R24, U6): safe -/
  | operandLength (n : Nat)
  /-- raised by `State.present`, for a second request while one is in progress (20_memory.md R26, U1): safe -/
  | overlappingRequest
  /-- raised by `Response.dout` and `Response.valid`, for the part an operation does not drive (30_encoding.md R33,
  U7): safe -/
  | undrivenResponse
  /-- raised by `takeCall`, for a call while a transfer is outstanding (60_exceptions.md R76, U1): safe -/
  | concurrentCall
  /-- raised by `takeCall`, for `transfer` or `disconnect` without a session (R74, R79, log 13): safe -/
  | noSession
  /-- raised by `takeCall`, for `connect` while a session exists (R79, log 13): safe -/
  | sessionOpen
  deriving DecidableEq, Repr

/-- What a step answers. -/
abbrev Result := Host.Outcome State Fault Refusal

/-- The machine right after reset (10_state.md R18, 70_reset_and_hazards.md R83): no operation in progress and a request
accepted at once. The spec states no reset value for the host, the consumer and the session; log 3 and log 4 name the
values chosen here (DESIGN CHOICE, unsafe). -/
def State.reset : State where
  resetPending := false
  port := none
  inbox := none
  received := none
  transactions := []
  phase := .idle
  polling := false
  reading := Reading.empty
  session := none
  inputs := []
  actions := []

end Sys2Proof.Machine
end

