-- ==== Sys2Proof/Machine/Ops.lean ====
section
/-! DEFINITION. The operations that every meaning and the host share: the request port and its response, reset, what the
host does and reports, and the one error entry of this hardware. There is no memory to operate on (20_memory.md R19). -/

namespace Sys2Proof.Machine

/-- The `dout` part of a response; it is refused where the operation does not drive it (30_encoding.md R33, U7). -/
def Response.dout : Response → Except Refusal Frame
  | .frame d => .ok d
  | .verdict _ => .error .undrivenResponse

/-- The `valid` part of a response; it is refused where the operation does not drive it (R33, U7). -/
def Response.valid : Response → Except Refusal Bool
  | .frame _ => .error .undrivenResponse
  | .verdict v => .ok v

namespace State

/-- The core answers: the transaction is complete, its response is with the requester and on record. The core keeps
nothing (10_state.md R14). -/
def respond (request : Request) (response : Response) (s : State) : State :=
  { s with
    transactions := s.transactions ++ [⟨request, response⟩]
    received := some response }

/-- A request is presented at the core's port. A second one while an operation is in progress is refused
(20_memory.md R26, U1). -/
def present (word : BitVec 65) (s : State) : Result :=
  match s.port with
  | none => .next { s with port := some word, received := none }
  | some _ => .refused .overlappingRequest

/-- A decoded frame is handed to the consumer (60_exceptions.md R75). -/
def offer (frame : Frame) (s : State) : State :=
  { s with inbox := some (packFrame frame) }

/-- Reset ends the operation in progress without a response (70_reset_and_hazards.md R83, R84). DESIGN CHOICE, unsafe:
it changes nothing of the host, the consumer and the session (log 18). -/
def takeReset (s : State) : State :=
  { s with resetPending := false, port := none }

/-- The host does something towards the transport or its caller. -/
def act (a : HostAction) (s : State) : State :=
  { s with actions := s.actions ++ [a] }

/-- The host stops polling; doing so twice is the same as once (60_exceptions.md R71). -/
def stopPolling (s : State) : State :=
  { s.act .stopPolling with polling := false }

/-- A transfer starts: the Reading is empty, the endpoint is primed and polled (60_exceptions.md R74,
42_context_frame_consumer.md R59). DESIGN CHOICE, unsafe (log 19): the spec gives no outcome for a priming transfer that
itself fails; here it always succeeds, and no input stands for its failure. -/
def beginTransfer (s : State) : State :=
  { (s.act (.initialTransfer Config.frameSize)).act (.startPolling Config.pollWindow Config.transferBuffer) with
    polling := true
    phase := .polling
    reading := Reading.empty }

/-- A transfer ends with its Reading: polling stops first, then the Reading is reported (R71, R75). -/
def finishTransfer (s : State) : State :=
  { s.stopPolling.act (.report (.completed s.reading)) with phase := .idle }

/-- TAKING AN ERROR, the only exception entry of this hardware (60_exceptions.md R69, R71): polling stops first, then
the error is reported, and the call is over. Nothing of the core is saved or changed, no register holds a cause or a
return address, and the frame that failed is dropped. There is no return from an error (R72): a new transfer starts
with `beginTransfer`. While no transfer is outstanding the report goes to whoever presented the frame (log 20). -/
def failTransfer (e : ErrorKind) (s : State) : State :=
  { s.stopPolling.act (.report (if s.phase = .idle then .rejected e else .transferFailed e)) with phase := .idle }

end State

end Sys2Proof.Machine
end

