-- ==== Sys2Proof/Machine/Operands.lean ====
section
/-! DEFINITION. How operands are assembled (20_memory.md R21 to R24, 30_encoding.md R34). -/

namespace Sys2Proof.Machine

/-- The eight bytes of a delivery, in delivery order: `frame[0]` is the first (20_memory.md R21). Any other number of
bytes is refused at the model's boundary (R24, D10). -/
def frameOfBytes : List Byte → Except Refusal Frame
  | [b0, b1, b2, b3, b4, b5, b6, b7] => .ok ⟨b0, b1, b2, b3, b4, b5, b6, b7⟩
  | bytes => .error (.operandLength bytes.length)

/-- `(i - 1 + 8) mod 8`, the one computed index (R23); 8 is added first, since a natural has no value below 0. -/
def prevIndex (i : Fin 8) : Fin 8 := ⟨(i.val + 8 - 1) % 8, Nat.mod_lt _ (by decide)⟩

/-- The 16-bit measurement `(valueHi << 8) | valueLo`: the lower index is the more significant byte
(20_memory.md R22, 42_context_frame_consumer.md R60). -/
def measurement (valueHi valueLo : Byte) : BitVec 16 := valueHi ++ valueLo

end Sys2Proof.Machine
end

