-- ==== Sys2Proof/Machine/Flags.lean ====
section
/-! DEFINITION. The one condition-like value of this hardware, the verdict (10_state.md R16, 41_validate.md R54, R55).
It is a response and is stored nowhere. -/

namespace Sys2Proof.Machine

/-- `Checksum(decoded)`: the sum of bytes 0, 1 and 2 modulo 256 (41_validate.md R54, 90_conflicts.md C1). -/
def checksum (decoded : Frame) : Byte :=
  BitVec.ofNat 8 ((decoded.a0.toNat + decoded.a1.toNat + decoded.a2.toNat) % 256)

/-- `Validate(decoded)`: the terminator and the checksum, both (R53, R55). -/
def validate (decoded : Frame) : Bool :=
  decoded.a4 == Config.TERMINATOR && decoded.a3 == checksum decoded

end Sys2Proof.Machine
end

