-- ==== Sys2Proof/Machine/Decrypt.lean ====
section
/-! DEFINITION. The operation DECRYPT: its three stages (40_decrypt.md R42 to R45), its meaning, and the inverse
transform, which is no operation of the core (R51). Shifts work on naturals of unbounded width and a mask narrows the
result, as in the source (92_eei_decisions.md D16). -/

namespace Sys2Proof.Machine

/-- A byte with its two four-bit halves exchanged: `((v >> 4) | (v << 4)) & 0xFF` (10_state.md R10). -/
def nibbleSwap (v : Byte) : Byte :=
  BitVec.ofNat 8 (((v.toNat >>> 4) ||| (v.toNat <<< 4)) &&& 0xFF)

/-- `CTMP` (R10). -/
def ctmp : Frame := Array8.ofFn fun i => nibbleSwap (Config.CSTATE.get i)

/-- Stage 1 into an array that holds anything: `dataXor[idx] <- frame[i] ^ key[idx]` with `idx = SHUF[i]`, for `i`
counted up (40_decrypt.md R43). -/
def stage1Into (dataXor key frame : Frame) : Frame :=
  indices.foldl
    (fun d i => d.set (Config.SHUF.get i) (frame.get i ^^^ key.get (Config.SHUF.get i))) dataXor

/-- `Stage1`. Every element of `dataXor` is written, so what it held before does not matter (R43). -/
def stage1 (key frame : Frame) : Frame :=
  stage1Into (Array8.ofFn fun _ => 0) key frame

/-- One byte of stage 2: `((x >> 3) | (p << 5)) & 0xFF`, where `p` is the predecessor of `x` (R44). -/
def rotateByte (x p : Byte) : Byte :=
  BitVec.ofNat 8 (((x.toNat >>> 3) ||| (p.toNat <<< 5)) &&& 0xFF)

/-- `Stage2`: the 64-bit frame rotated right by 3 bits, from `dataXor` into another array (R44, R87). -/
def stage2 (dataXor : Frame) : Frame :=
  Array8.ofFn fun i => rotateByte (dataXor.get i) (dataXor.get (prevIndex i))

/-- One byte of stage 3: `(0x100 + t - c) & 0xFF`; the sum is never negative (R45). -/
def subtractByte (t c : Byte) : Byte :=
  BitVec.ofNat 8 ((0x100 + t.toNat - c.toNat) &&& 0xFF)

/-- `Stage3`: lane by lane, no borrow between lanes (R45). -/
def stage3 (dataTmp : Frame) : Frame :=
  Array8.ofFn fun i => subtractByte (dataTmp.get i) (ctmp.get i)

/-- `Decrypt(key, frame)`: the three stages, each to completion before the next (R42, R86). -/
def decrypt (key frame : Frame) : Frame := stage3 (stage2 (stage1 key frame))

/-- The meaning of `DECRYPT`: the core answers with the decoded frame; the key is hard-wired (00_scope.md R6). -/
def execDecrypt (frame : Frame) (s : State) : Result :=
  .next (s.respond ⟨.decrypt, frame⟩ (.frame (decrypt Config.KEY frame)))

/-- The index after `i`, around the array (R51). -/
def nextIndex (i : Fin 8) : Fin 8 := ⟨(i.val + 1) % 8, Nat.mod_lt _ (by decide)⟩

/-- Undo stage 3: add back, modulo 256 (R51). -/
def unstage3 (decoded : Frame) : Frame :=
  Array8.ofFn fun i => BitVec.ofNat 8 (((decoded.get i).toNat + (ctmp.get i).toNat) &&& 0xFF)

/-- Undo stage 2: rotate left by 3 (R51). -/
def unstage2 (dataTmp : Frame) : Frame :=
  Array8.ofFn fun i =>
    BitVec.ofNat 8
      (((((dataTmp.get i).toNat &&& 0x1F) <<< 3) ||| ((dataTmp.get (nextIndex i)).toNat >>> 5)) &&& 0xFF)

/-- Undo stage 1 (R51). -/
def unstage1 (key dataXor : Frame) : Frame :=
  Array8.ofFn fun i => dataXor.get (Config.SHUF.get i) ^^^ key.get (Config.SHUF.get i)

/-- `Encrypt(key, decoded)`: a test scaffold, no operation of the core (R51). -/
def encrypt (key decoded : Frame) : Frame := unstage1 key (unstage2 (unstage3 decoded))

end Sys2Proof.Machine
end

