-- ==== Sys2Proof/Machine/Validate.lean ====
section
/-! DEFINITION. The operation VALIDATE (41_validate.md R53), what the core answers to any request
(70_reset_and_hazards.md R92), and the pseudo-operation PROCESS (30_encoding.md R40). -/

namespace Sys2Proof.Machine

/-- The meaning of `VALIDATE`: the core answers with the verdict; it raises nothing and remembers nothing (R53, R58). -/
def execValidate (decoded : Frame) (s : State) : Result :=
  .next (s.respond ⟨.validate, decoded⟩ (.verdict (validate decoded)))

/-- The response to a request is a function of the request alone (00_scope.md R2, 70_reset_and_hazards.md R92). -/
def answer (r : Request) : Response :=
  match r.op with
  | .decrypt => .frame (decrypt Config.KEY r.operand)
  | .validate => .verdict (validate r.operand)

/-- The transaction of a request word (R92). -/
def transactionOf (word : BitVec 65) : Transaction :=
  ⟨decodeRequest word, answer (decodeRequest word)⟩

/-- The two requests that `PROCESS` expands to (30_encoding.md R40). -/
def processRequests (raw : Frame) : List Request :=
  [⟨.decrypt, raw⟩, ⟨.validate, decrypt Config.KEY raw⟩]

/-- The response of `PROCESS`: the decoded frame and its verdict (R40). -/
def process (raw : Frame) : Frame × Bool :=
  let d := decrypt Config.KEY raw
  (d, validate d)

end Sys2Proof.Machine
end

