-- ==== Sys2Proof/Machine/Consumer.lean ====
section
/-! DEFINITION. The consumer of decoded frames and the meanings of the two context rows
(42_context_frame_consumer.md R59 to R66). -/

namespace Sys2Proof.Machine

/-- `ROUND2(value/16 - 273.15)` in hundredths of a degree Celsius (R61). In ten-thousandths the exact quantity is the
integer `625*value - 2731500`; it is rounded to the nearest hundred, and a tie goes either way, by a free value
(92_eei_decisions.md D18; log 9). -/
def temperatureOf (value : BitVec 16) : Int :=
  let exact : Int := 625 * (value.toNat : Int) - 2731500
  let down := exact / 100
  let rest := exact % 100
  if rest < 50 then down
  else if 50 < rest then down + 1
  else if Config.tieRoundsUp value then down + 1
  else down

/-- A temperature frame sets the temperature, unless the Reading is complete (R61, R64, R66). -/
def Reading.ingestTemp (value : BitVec 16) (r : Reading) : Reading :=
  if r.complete then r else { r with temperatureC := some (temperatureOf value) }

/-- A CO2 frame sets the concentration, unless the Reading is complete (R62, R64, R66). -/
def Reading.ingestCo2 (value : BitVec 16) (r : Reading) : Reading :=
  if r.complete then r else { r with co2 := some value }

/-- `Ingest(reading, decoded)`: the consumer's step on a validated frame; any other op byte changes nothing
(R63, R66). -/
def ingest (r : Reading) (decoded : Frame) : Reading :=
  let value := measurement decoded.a1 decoded.a2
  if decoded.a0 = Config.OP_TEMP then r.ingestTemp value
  else if decoded.a0 = Config.OP_CO2 then r.ingestCo2 value
  else r

/-- A decoded frame reaches the consumer. The consumer takes validated frames only (R65); a frame that is not valid is
the host's `ChecksumError` and changes no Reading (41_validate.md R58, 60_exceptions.md R69; log 7). DESIGN CHOICE, unsafe
(log 24): a valid frame is ingested whatever the phase of the host, also when the host did not pass it. -/
def consume (decoded : Frame) (effect : Reading → Reading) (s : State) : State :=
  if validate decoded then { s with reading := effect s.reading } else s.failTransfer .checksumError

/-- The meaning of `FRAME.TEMP` (R61). -/
def execFrameTemp (b : FrameBody) (s : State) : Result :=
  .next (consume (b.toFrame Config.OP_TEMP) (Reading.ingestTemp (measurement b.valueHi b.valueLo)) s)

/-- The meaning of `FRAME.CO2` (R62). -/
def execFrameCo2 (b : FrameBody) (s : State) : Result :=
  .next (consume (b.toFrame Config.OP_CO2) (Reading.ingestCo2 (measurement b.valueHi b.valueLo)) s)

/-- A decoded frame that is no row of the opcode table: validated, it is ignored and is no error (R63,
30_encoding.md R36; log 8). -/
def consumeUnlisted (decoded : Frame) (s : State) : State := consume decoded id s

end Sys2Proof.Machine
end

