-- ==== Sys2Proof/Machine/Dispatch.lean ====
section
/-! DEFINITION. One arm per instruction. -/

namespace Sys2Proof.Machine

def exec (i : Instr) (s : State) : Host.Outcome State Fault Refusal :=
  match i with
  | .decrypt frame => Sys2Proof.Machine.execDecrypt frame s
  | .validate decoded => Sys2Proof.Machine.execValidate decoded s
  | .frameTemp body => Sys2Proof.Machine.execFrameTemp body s
  | .frameCo2 body => Sys2Proof.Machine.execFrameCo2 body s

end Sys2Proof.Machine
end

