-- ==== Sys2Proof/Machine/Session.lean ====
section
/-! DEFINITION. The application's calls: connect, transfer, disconnect (60_exceptions.md R74, R76, R78, R79). -/

namespace Sys2Proof.Machine

/-- `connect`, in the order of R78, as far as the transport lets it go. DESIGN CHOICE, unsafe (log 16): R78 gives no
outcome for a located device that cannot be opened, nor for a claim or a binding that fails; here all three always
succeed, and a `connect` that fails after the opening closes nothing. -/
def connect (ids : UsbIds) (answers : ConnectAnswers) (s : State) : State :=
  let s := s.act (.locateDevice ids)
  if !answers.devicePresent then s.act (.report (.connectFailed .deviceNotFound)) else
  let s := s.act .openDevice
  if !answers.interfacePresent then s.act (.report (.connectFailed .interfaceNotFound)) else
  let s := (s.act (.selectInterface 0)).act (.controlTransfer Config.handshake)
  if !answers.controlOk then s.act (.report (.connectFailed .controlTransferError)) else
  let s := ((s.act .claimInterface).act (.bindEndpoint 0)).act (.report .connected)
  { s with session := some ⟨ids, 0, 0⟩ }

/-- `disconnect`: both steps are always attempted, and the session is closed whatever they answer (R79, R72; log 21). -/
def disconnect (releaseOk closeOk : Bool) (s : State) : State :=
  { ((s.act .releaseInterface).act .closeDevice).act (.report (.disconnected releaseOk closeOk)) with
    session := none }

/-- A call of the application. One transfer at a time; what R76 calls undefined is refused (U1; log 13). -/
def takeCall (c : Call) (s : State) : Result :=
  match c with
  | .connect ids answers =>
    if s.session.isSome then .refused .sessionOpen
    else .next (connect (ids.getD Config.defaultIds) answers s)
  | .transfer =>
    if s.phase ≠ .idle then .refused .concurrentCall
    else if s.session.isNone then .refused .noSession
    else .next s.beginTransfer
  | .disconnect releaseOk closeOk =>
    if s.phase ≠ .idle then .refused .concurrentCall
    else if s.session.isNone then .refused .noSession
    else .next (disconnect releaseOk closeOk s)

end Sys2Proof.Machine
end

