-- ==== Sys2Proof/Machine/HostLoop.lean ====
section
/-! DEFINITION. The host: its handling of each raw frame (60_exceptions.md R75), one action a step, and the same
handling as one function of the frame. -/

namespace Sys2Proof.Machine

/-- The host issues a request and stands in `phase` until the response is there (R75, 20_memory.md R26). -/
def issue (r : Request) (phase : HostPhase) (s : State) : Result :=
  State.present (encodeRequest r) { s with phase := phase }

/-- A raw frame is there: the host asks the core to decrypt it (R75). -/
def acceptRaw (bytes : List Byte) (s : State) : Result :=
  match frameOfBytes bytes with
  | .ok raw => issue ⟨.decrypt, raw⟩ (.awaitDecrypt raw) s
  | .error e => .refused e

/-- The host takes one input, `s` being the state without it. What the endpoint sends while no transfer is outstanding
is dropped (R75, 92_eei_decisions.md D22; log 12). -/
def takeInput (input : Input) (s : State) : Result :=
  match input with
  | .request word => s.present word
  | .call c => takeCall c s
  | .frame bytes => if s.phase = .polling then acceptRaw bytes s else .next s
  | .initialData bytes =>
    if s.phase = .polling ∧ Config.initialDataIsFrame = true then acceptRaw bytes s else .next s
  | .transportError =>
    if s.phase = .polling then .next (s.failTransfer .endpointTransferError) else .next s

/-- The host waits for an event and takes the oldest input; with none it goes on waiting (R77, log 22). -/
def takeNextInput (s : State) : Result :=
  match s.inputs with
  | [] => .next s
  | input :: rest => takeInput input { s with inputs := rest }

/-- One action of the host, the core and the consumer being idle (R75). R84 (70_reset_and_hazards.md) says of a request
that reset abandoned only that the host may repeat it. DESIGN CHOICE, unsafe (log 18): in `awaitDecrypt` and
`awaitVerdict` the host issues its request again; a bare request (`Input.request`), which was taken from the inputs when
it was issued, is not repeated, and the host goes on with its next input. R58 (41_validate.md) makes a verdict of 0 an
error of whoever asked. DESIGN CHOICE, unsafe (log 17): in `idle` and `polling` the host ignores the response to a bare
request, so a bare `VALIDATE` answered 0 ends no transfer and is not reported. R64 and R65
(42_context_frame_consumer.md) speak of frames that the host passed to the consumer. DESIGN CHOICE, unsafe (log 24): the
host asks whether the Reading is complete in `ingesting` only, so a valid frame put before the consumer from outside
changes the Reading, and one that completes it in `polling` neither stops the polling nor is reported until a later raw
frame is handled. -/
def hostStep (s : State) : Result :=
  match s.phase with
  | .idle => takeNextInput s
  | .polling => takeNextInput s
  | .awaitDecrypt raw =>
    match s.received with
    | none => issue ⟨.decrypt, raw⟩ (.awaitDecrypt raw) s
    | some r =>
      match r.dout with
      | .error e => .refused e
      | .ok d => issue ⟨.validate, d⟩ (.awaitVerdict d) s
  | .awaitVerdict d =>
    match s.received with
    | none => issue ⟨.validate, d⟩ (.awaitVerdict d) s
    | some r =>
      match r.valid with
      | .error e => .refused e
      | .ok true => .next { s.offer d with phase := .ingesting }
      | .ok false => .next (s.failTransfer .checksumError)
  | .ingesting =>
    if s.reading.complete then .next s.finishTransfer else .next { s with phase := .polling }

/-- What handling one raw frame comes to. -/
inductive FrameOutcome where
  | goOn     (r : Reading)
  | complete (r : Reading)
  | failed   (e : ErrorKind)
  deriving DecidableEq, Repr

/-- `OnFrame(raw)` as one function (R75). -/
def onFrame (r : Reading) (raw : Frame) : FrameOutcome :=
  let d := decrypt Config.KEY raw
  if validate d then
    let r' := ingest r d
    if r'.complete then .complete r' else .goOn r'
  else .failed .checksumError

end Sys2Proof.Machine
end

