-- ==== Sys2Proof/Machine/Fetch.lean ====
section
/-! DEFINITION. What the next step runs. There is no program counter and no instruction memory (10_state.md R15): the
next instruction is the request at the core's port, else the decoded frame before the consumer. -/

namespace Sys2Proof.Machine

/-- What the next step is. -/
inductive Fetched where
  /-- a reset that has arrived (70_reset_and_hazards.md R84) -/
  | reset
  /-- an instruction of the opcode table, and the state from which it was taken -/
  | instr (i : Instr) (s : State)
  /-- a decoded frame that is no row of the table (30_encoding.md R36), and the state from which it was taken -/
  | unlisted (decoded : Frame) (s : State)
  /-- the core and the consumer are idle: the host acts -/
  | host
  deriving DecidableEq, Repr

/-- A reset first, then the operation in progress, then the frame before the consumer, then the host (log 2). -/
def fetch (s : State) : Fetched :=
  if s.resetPending then .reset
  else match s.port with
    | some w => .instr (decodeRequest w).toInstr { s with port := none }
    | none =>
      match s.inbox with
      | none => .host
      | some w =>
        match decodeDframe w with
        | .ok i => .instr i { s with inbox := none }
        | .error _ => .unlisted (unpackFrame w) { s with inbox := none }

/-- What carries an instruction, put where the next step takes it from: a request at the idle core's port, a decoded
frame before the consumer while the core is idle; no reset waits (log 14; what the host does then is log 24). -/
def place (w : Wire) (s : State) : State :=
  match w with
  | .command word => { s with resetPending := false, port := some word }
  | .dframe word => { s with resetPending := false, port := none, inbox := some word }

end Sys2Proof.Machine
end

