-- ==== Sys2Proof/Machine/Step.lean ====
section
/-! DEFINITION. One step of the machine, and how an instruction is put before it. -/

namespace Sys2Proof.Machine

/-- One step: one action of one agent. -/
def step (s : State) : Host.Outcome State Fault Refusal :=
  match fetch s with
  | .reset => .next s.takeReset
  | .instr i t => exec i t
  | .unlisted decoded t => .next (consumeUnlisted decoded t)
  | .host => hostStep s

/-- `s` with an instruction of the opcode table where the next step takes it from (log 14). A number of bits or a word
that is no instruction leaves `s` as it is. -/
def State.withFetchWord (s : State) (nbits w : Nat) : State :=
  match wireOfTableWord nbits w with
  | .ok wire => place wire s
  | .error _ => s

end Sys2Proof.Machine
end

