-- ==== Sys2Proof/Machine/Text.lean ====
section
/-! DEFINITION. The textual syntax of requests and programs (30_encoding.md R39, R40). Text is a list of characters. -/

namespace Sys2Proof.Machine

abbrev Text := List Char

/-- A line of a program (R39, R40). -/
inductive Line where
  | decrypt  (frame : Frame)
  | validate (decoded : Frame)
  /-- `VALIDATE $`: the operand is the response of the `DECRYPT` on the line before -/
  | validateLast
  | process  (raw : Frame)
  deriving DecidableEq, Repr

/-- The hexadecimal digit of a number below 16, in capitals as the spec writes it. -/
def hexDigit (n : Nat) : Char := if n < 10 then Char.ofNat (48 + n) else Char.ofNat (55 + n)

/-- A byte as two hexadecimal digits. -/
def byteText (b : Byte) : Text := [hexDigit (b.toNat / 16), hexDigit (b.toNat % 16)]

/-- The operand bytes, each after a blank. -/
def operandText (f : Frame) : Text := f.toList.flatMap fun b => ' ' :: byteText b

def decryptName : Text := ['D', 'E', 'C', 'R', 'Y', 'P', 'T']
def validateName : Text := ['V', 'A', 'L', 'I', 'D', 'A', 'T', 'E']
def processName : Text := ['P', 'R', 'O', 'C', 'E', 'S', 'S']

/-- A line as text (R39, R40). -/
def Line.text : Line → Text
  | .decrypt f => decryptName ++ operandText f
  | .validate f => validateName ++ operandText f
  | .validateLast => validateName ++ [' ', '$']
  | .process f => processName ++ operandText f

/-- A response as text: eight bytes, or `valid=0` or `valid=1` (R39). -/
def Response.text : Response → Text
  | .frame d => (operandText d).drop 1
  | .verdict v => ['v', 'a', 'l', 'i', 'd', '=', if v then '1' else '0']

/-- The spelling of a request word: `op_sel`, a colon, sixteen hexadecimal digits (R39). -/
def spelling (word : BitVec 65) : Text :=
  (if word.getLsbD 64 then '1' else '0') :: ':' :: (unpackFrame (word.extractLsb' 0 64)).toList.flatMap byteText

/-- The value of a hexadecimal digit; small letters are read too (log 23). -/
def hexValue (c : Char) : Option Nat :=
  let n := c.toNat
  if 48 ≤ n ∧ n ≤ 57 then some (n - 48)
  else if 65 ≤ n ∧ n ≤ 70 then some (n - 55)
  else if 97 ≤ n ∧ n ≤ 102 then some (n - 87)
  else none

/-- A word of two hexadecimal digits. -/
def readByte : Text → Option Byte
  | [h, l] =>
    match hexValue h, hexValue l with
    | some a, some b => some (BitVec.ofNat 8 (16 * a + b))
    | _, _ => none
  | _ => none

/-- Eight words of two hexadecimal digits. -/
def readFrame (ws : List Text) : Option Frame :=
  match ws.map readByte with
  | [some b0, some b1, some b2, some b3, some b4, some b5, some b6, some b7] =>
    some ⟨b0, b1, b2, b3, b4, b5, b6, b7⟩
  | _ => none

/-- The words of a text, `acc` being the word being read, backwards; several blanks count as one (log 23). -/
def wordsFrom (acc : Text) : Text → List Text
  | [] => if acc.isEmpty then [] else [acc.reverse]
  | c :: rest =>
    if c = ' ' then
      if acc.isEmpty then wordsFrom [] rest else acc.reverse :: wordsFrom [] rest
    else wordsFrom (c :: acc) rest

/-- A line read: the comment after `;` and a response after `->` are no part of the request (R39). -/
def readLine (t : Text) : Option Line :=
  match (wordsFrom [] (t.takeWhile (· != ';'))).takeWhile (· != ['-', '>']) with
  | [] => none
  | name :: args =>
    if name = decryptName then (readFrame args).map .decrypt
    else if name = validateName then
      if args = [['$']] then some .validateLast else (readFrame args).map .validate
    else if name = processName then (readFrame args).map .process
    else none

/-- The requests of a program, `last` being the response of the `DECRYPT` on the line before, if that line is one.
`VALIDATE $` anywhere else has no operand, and the program is refused (R39); `PROCESS` is two requests (R40). -/
def assemble (last : Option Frame) : List Line → Option (List Request)
  | [] => some []
  | .decrypt f :: rest => (assemble (some (decrypt Config.KEY f)) rest).map (⟨.decrypt, f⟩ :: ·)
  | .validate f :: rest => (assemble none rest).map (⟨.validate, f⟩ :: ·)
  | .validateLast :: rest =>
    match last with
    | some d => (assemble none rest).map (⟨.validate, d⟩ :: ·)
    | none => none
  | .process f :: rest => (assemble none rest).map (processRequests f ++ ·)

/-- A program before the host: its requests, to be issued in order (70_reset_and_hazards.md R92). -/
def programInputs (requests : List Request) : List Input :=
  requests.map fun r => .request (encodeRequest r)

end Sys2Proof.Machine
end

