-- ==== Sys2Proof/Safety.lean ====
section
/-! DEFINITION. What a safe run is, in the terms the statements use. -/

namespace Sys2Proof.Machine

/-- Whether the endpoint is being polled after an action, `on` saying whether it was before. -/
def HostAction.pollsAfter (on : Bool) : HostAction → Bool
  | .startPolling _ _ => true
  | .stopPolling => false
  | _ => on

/-- Whether the endpoint is being polled after these actions; at first it is not. -/
def pollingAfter (actions : List HostAction) : Bool :=
  actions.foldl HostAction.pollsAfter false

/-- The action ends a transfer call (60_exceptions.md R71): its Reading or its error is reported. -/
def HostAction.endsTransfer : HostAction → Bool
  | .report (.completed _) => true
  | .report (.transferFailed _) => true
  | _ => false

/-- The action starts a transfer call's polling (R74). -/
def HostAction.startsTransfer : HostAction → Bool
  | .startPolling _ _ => true
  | _ => false

/-- Only complete Readings are reported (42_context_frame_consumer.md R64). -/
def HostAction.reportsComplete : HostAction → Bool
  | .report (.completed r) => r.complete
  | _ => true

/-- "Never report completion while polling is still active" (R71): where a transfer's end is reported, the actions
before it have stopped the polling. -/
def QuietReports (actions : List HostAction) : Prop :=
  ∀ before a after, actions = before ++ a :: after → a.endsTransfer = true → pollingAfter before = false

/-- A transaction's response is the one its request determines (70_reset_and_hazards.md R92). -/
def Transaction.answered (t : Transaction) : Prop := t.response = answer t.request

/-- What the host's phase says of the request it waits for: it is at the port and unanswered, or it was answered, or
reset took it (R75, 20_memory.md R26). -/
def State.Waits (s : State) (r : Request) : Prop :=
  (s.port = some (encodeRequest r) ∧ s.received = none) ∨
  (s.port = none ∧ (s.received = none ∨ s.received = some (answer r)))

/-- The invariant of the machine. -/
structure State.Inv (s : State) : Prop where
  /-- the endpoint is polled exactly while a transfer is outstanding -/
  polls : s.polling = true ↔ s.phase ≠ .idle
  /-- the record of actions agrees -/
  recorded : pollingAfter s.actions = s.polling
  /-- polling is stopped before a transfer's end is reported -/
  quiet : QuietReports s.actions
  /-- every Reading reported is complete -/
  whole : ∀ a ∈ s.actions, a.reportsComplete = true
  /-- "Polling never produces two completions for one transfer call" (R64, R70) -/
  once : s.actions.countP HostAction.startsTransfer =
    s.actions.countP HostAction.endsTransfer + (if s.phase = .idle then 0 else 1)
  /-- a transfer belongs to a session (R74) -/
  held : s.phase ≠ .idle → s.session.isSome = true
  /-- every response on record is that of its request -/
  answered : ∀ t ∈ s.transactions, t.answered
  /-- the host holds the response it waits for, or none -/
  decrypting : ∀ raw, s.phase = .awaitDecrypt raw → s.Waits ⟨.decrypt, raw⟩
  validating : ∀ d, s.phase = .awaitVerdict d → s.Waits ⟨.validate, d⟩

/-- No reset waits, no operation is in progress and no frame is before the consumer: the host moves. -/
def State.Quiescent (s : State) : Prop :=
  s.resetPending = false ∧ s.port = none ∧ s.inbox = none

/-- The outside keeps its side (60_exceptions.md R76, R79, R80): deliveries are eight bytes, a call comes while no
transfer is outstanding, `connect` without a session and the other calls with one. -/
def Input.Legal (s : State) : Input → Prop
  | .request _ => True
  | .call (.connect _ _) => s.session = none
  | .call .transfer => s.phase = .idle ∧ s.session.isSome = true
  | .call (.disconnect _ _) => s.phase = .idle ∧ s.session.isSome = true
  | .frame bytes => bytes.length = Config.frameSize
  | .initialData bytes => bytes.length = Config.frameSize
  | .transportError => True

/-- The next state of an answer, if it is one. -/
def nextState : Result → Option State
  | .next s => some s
  | .fault _ => none
  | .refused _ => none

end Sys2Proof.Machine
end

