-- ==== Sys2Proof/Certificates/Slice0/Obligations.lean ====
section
/-! DEFINITION. The statements for the provers. Each docstring names the rule of spec/ it formalises, or the log entry
where it rests on a choice of the model. -/

open Sys2Proof Sys2Proof.Machine

/-! ## The hard-wired tables and the three stages -/

/-- R7, R8, R9, R10: the tables hold the listed bytes. -/
def Obligations.HardwiredTablesHoldTheirBytes : Prop :=
  Config.KEY.toList = [0xC4, 0xC6, 0xC0, 0x92, 0x40, 0x23, 0xDC, 0x96] ∧
  Config.CSTATE.toList = [0x48, 0x74, 0x65, 0x6D, 0x70, 0x39, 0x39, 0x65] ∧
  Config.SHUF.toList = [2, 4, 0, 7, 1, 6, 5, 3] ∧
  ctmp.toList = [0x84, 0x47, 0x56, 0xD6, 0x07, 0x93, 0x93, 0x56] ∧
  ∀ i, (ctmp.get i).toNat = (Config.CSTATE.get i).toNat / 16 + 16 * ((Config.CSTATE.get i).toNat % 16)

/-- R9: the shuffle table is a permutation and its own inverse. -/
def Obligations.ShuffleIsAPermutationAndItsOwnInverse : Prop :=
  Function.Bijective Config.SHUF.get ∧ ∀ i, Config.SHUF.get (Config.SHUF.get i) = i

/-- R43, R48: stage 1 sends source byte `i`, with the key byte of the shuffled index, to the shuffled index, whatever
the array held before; and so byte `j` of its result is gathered from source byte `SHUF[j]`. -/
def Obligations.StageOneScattersAndGathersThroughTheShuffle : Prop :=
  ∀ scratch key frame : Frame, ∀ i : Fin 8,
    (stage1Into scratch key frame).get (Config.SHUF.get i) =
        frame.get i ^^^ key.get (Config.SHUF.get i) ∧
    (stage1 key frame).get i = frame.get (Config.SHUF.get i) ^^^ key.get i

/-- R44, bit for bit: `dataTmp[i] = { dataXor[p][2:0], dataXor[i][7:3] }` with `p = (i - 1 + 8) mod 8`. -/
def Obligations.StageTwoTakesThreeBitsFromThePredecessor : Prop :=
  ∀ (dataXor : Frame) (i p : Fin 8), p.val = (i.val + 7) % 8 → ∀ k : Fin 8,
    ((stage2 dataXor).get i).getLsbD k.val =
      if k.val < 5 then (dataXor.get i).getLsbD (k.val + 3) else (dataXor.get p).getLsbD (k.val - 5)

/-- R45, R10: stage 3 subtracts the nibble-swapped CipherState byte modulo 256, lane by lane. -/
def Obligations.StageThreeSubtractsTheSwappedByteModulo256 : Prop :=
  ∀ (dataTmp : Frame) (i : Fin 8),
    ((stage3 dataTmp).get i).toNat =
      (256 + (dataTmp.get i).toNat -
        ((Config.CSTATE.get i).toNat / 16 + 16 * ((Config.CSTATE.get i).toNat % 16))) % 256

/-- R49: stage 2 is the rotation of the 64-bit word right by 3, and DECRYPT is that rotation of the permuted and keyed
word, followed by a subtraction byte by byte with no borrow between bytes. -/
def Obligations.DecryptIsWordRotationThenByteSubtraction : Prop :=
  (∀ dataXor : Frame, packFrame (stage2 dataXor) = (packFrame dataXor).rotateRight 3) ∧
  ∀ (key frame : Frame) (i : Fin 8),
    (decrypt key frame).get i =
      (unpackFrame ((packFrame (Array8.ofFn fun j => frame.get (Config.SHUF.get j)) ^^^ packFrame key).rotateRight 3)).get i
        - ctmp.get i

/-- R50: changing raw byte `i` changes no decoded byte but those of index `SHUF[i]` and `SHUF[i] + 1` modulo 8; every
change of its top five bits shows in the first, every change of its low three bits in the second. -/
def Obligations.RawByteReachesExactlyTwoDecodedBytes : Prop :=
  ∀ (key frame : Frame) (i : Fin 8) (v : Byte),
    (∀ j : Fin 8, j ≠ Config.SHUF.get i → j ≠ nextIndex (Config.SHUF.get i) →
      (decrypt key (frame.set i v)).get j = (decrypt key frame).get j) ∧
    (v >>> 3 ≠ frame.get i >>> 3 →
      (decrypt key (frame.set i v)).get (Config.SHUF.get i) ≠ (decrypt key frame).get (Config.SHUF.get i)) ∧
    (v &&& 7 ≠ frame.get i &&& 7 →
      (decrypt key (frame.set i v)).get (nextIndex (Config.SHUF.get i)) ≠
        (decrypt key frame).get (nextIndex (Config.SHUF.get i)))

/-- R52: for every key `decrypt` is a bijection with inverse `encrypt`, each stage is a bijection, bytes 3 and 4 of a
frame that VALIDATE accepts are determined by the others, and exactly 2^48 raw frames decrypt to one. -/
def Obligations.DecryptIsABijectionWithInverseEncrypt : Prop :=
  (∀ key d : Frame, decrypt key (encrypt key d) = d) ∧
  (∀ key f : Frame, encrypt key (decrypt key f) = f) ∧
  (∀ key : Frame, Function.Bijective (decrypt key)) ∧
  (∀ key : Frame, Function.Bijective (stage1 key)) ∧
  Function.Bijective stage2 ∧
  Function.Bijective stage3 ∧
  (∀ b0 b1 b2 b5 b6 b7 : Byte, ∃! p : Byte × Byte, validate ⟨b0, b1, b2, p.1, p.2, b5, b6, b7⟩ = true) ∧
  Nat.card { f : Frame // validate (decrypt Config.KEY f) = true } = 2 ^ 48

/-! ## The core's two operations -/

/-- R46: for every operand and in every state DECRYPT answers a next state with eight bytes, those of the three stages
at the hard-wired key; the transaction and the host's copy of the response are the only change. -/
def Obligations.DecryptAlwaysAnswersEightBytes : Prop :=
  ∀ (frame : Frame) (s : State),
    exec (.decrypt frame) s = .next { s with
      transactions := s.transactions ++
        [⟨⟨.decrypt, frame⟩, .frame (stage3 (stage2 (stage1 Config.KEY frame)))⟩]
      received := some (.frame (stage3 (stage2 (stage1 Config.KEY frame)))) }

/-- R47: the response of DECRYPT depends on no history and on nothing but the frame. -/
def Obligations.DecryptDependsOnNothingButTheFrame : Prop :=
  ∀ (frame : Frame) (s s' : State), ∃ t t',
    exec (.decrypt frame) s = .next t ∧ exec (.decrypt frame) s' = .next t' ∧
    t.received = some (.frame (decrypt Config.KEY frame)) ∧ t'.received = t.received

/-- R53: for every operand and in every state VALIDATE answers a next state with the verdict; the transaction and the
host's copy of the response are the only change, and the operand is not modified. -/
def Obligations.ValidateAlwaysAnswersTheVerdict : Prop :=
  ∀ (decoded : Frame) (s : State),
    let verdict := decide (decoded.a4.toNat = 13 ∧
      decoded.a3.toNat = (decoded.a0.toNat + decoded.a1.toNat + decoded.a2.toNat) % 256)
    exec (.validate decoded) s = .next { s with
      transactions := s.transactions ++ [⟨⟨.validate, decoded⟩, .verdict verdict⟩]
      received := some (.verdict verdict) }

/-- R54. -/
def Obligations.ChecksumIsTheSumOfThreeBytesModulo256 : Prop :=
  ∀ d : Frame, (checksum d).toNat = (d.a0.toNat + d.a1.toNat + d.a2.toNat) % 256

/-- R55: the verdict is 1 exactly when both conditions hold, and a verdict of 0 does not say which failed. -/
def Obligations.VerdictNeedsTerminatorAndChecksum : Prop :=
  (∀ d : Frame, validate d = true ↔ d.get 4 = 0x0D ∧ d.get 3 = checksum d) ∧
  ∀ d d' : Frame, validate d = false → validate d' = false → answer ⟨.validate, d⟩ = answer ⟨.validate, d'⟩

/-- R56. -/
def Obligations.VerdictIgnoresTheLastThreeBytes : Prop :=
  ∀ d d' : Frame, (∀ i : Fin 8, i.val ≤ 4 → d.get i = d'.get i) → validate d = validate d'

/-- R57: exactly 2^48 values are valid; every change of one byte among bytes 0 to 4 of a valid frame is detected; two
changes can cancel. -/
def Obligations.EverySingleByteChangeOfAValidFrameIsDetected : Prop :=
  (∀ d : Frame, validate d = true ↔
    d.a3.toNat = (d.a0.toNat + d.a1.toNat + d.a2.toNat) % 256 ∧ d.a4 = 0x0D) ∧
  Nat.card { d : Frame // validate d = true } = 2 ^ 48 ∧
  (∀ (d : Frame) (i : Fin 8) (v : Byte), validate d = true → i.val ≤ 4 → v ≠ d.get i → validate (d.set i v) = false) ∧
  ∀ d : Frame, validate d = true → validate ((d.set 1 (d.a1 + 1)).set 2 (d.a2 - 1)) = true

/-- R2, R14, R25: in any two states the core answers the same request with the same transaction, which is the request's
own; it moves nothing else. -/
def Obligations.CoreAnswerDependsOnTheRequestAlone : Prop :=
  ∀ (s s' : State) (w : BitVec 65),
    s.resetPending = false → s'.resetPending = false → s.port = some w → s'.port = some w →
    ∃ response,
      step s = .next { s with
        port := none
        transactions := s.transactions ++ [⟨decodeRequest w, response⟩]
        received := some response } ∧
      step s' = .next { s' with
        port := none
        transactions := s'.transactions ++ [⟨decodeRequest w, response⟩]
        received := some response }

/-- R40: `PROCESS` is the two requests DECRYPT and VALIDATE, and its response is the decoded frame and its verdict. That
the requests wait as inputs of an idle host, and that they take four steps, is the model's choice: one step is one action
of one agent (log 2), a program is put before the machine from outside (log 14), in one queue of inputs (log 17). -/
def Obligations.ProcessIsDecryptThenValidate : Prop :=
  ∀ (s : State) (raw : Frame) (rest : List Input),
    s.Quiescent → s.phase = .idle → s.inputs = programInputs (processRequests raw) ++ rest →
    core.run 4 s = .next { s with
      inputs := rest
      received := some (.verdict (process raw).2)
      transactions := s.transactions ++
        [⟨⟨.decrypt, raw⟩, .frame (process raw).1⟩, ⟨⟨.validate, (process raw).1⟩, .verdict (process raw).2⟩] }

/-- R39, R40: in a program, a `PROCESS` line and the two lines `DECRYPT` and `VALIDATE $` are the same requests. -/
def Obligations.ProcessLineIsDecryptThenValidateLast : Prop :=
  ∀ (last : Option Frame) (raw : Frame) (rest : List Line),
    assemble last (.process raw :: rest) = assemble last (.decrypt raw :: .validateLast :: rest)

/-- R92, R25: a run of requests leaves behind the responses, one for each, in order, each determined by its own request,
and the core contributes nothing else. That the requests wait as inputs of an idle host, and that n of them take 2n
steps, is the model's choice: one step is one action of one agent (log 2), a program is put before the machine from
outside (log 14), in one queue of inputs (log 17). -/
def Obligations.RunOfRequestsLeavesItsResponsesInOrder : Prop :=
  ∀ (requests : List Request) (s : State) (rest : List Input),
    s.Quiescent → s.phase = .idle → s.inputs = programInputs requests ++ rest →
    core.run (2 * requests.length) s = .next { s with
      inputs := rest
      received := (requests.map answer).getLast?.or s.received
      transactions := s.transactions ++ requests.map (fun r => ⟨r, answer r⟩) }

/-! ## Words and text -/

/-- Every instruction is what its words decode to, with every operand at every value (R32, R41). -/
def Obligations.DecodeOfEncodeIsTheInstruction : Prop :=
  ∀ i : Instr, decode (encode i) = .ok i

/-- Every word that decodes is the word of its instruction: no bit is dropped (R32, R38, R41). -/
def Obligations.EncodeOfDecodeIsTheWord : Prop :=
  ∀ (w : Wire) (i : Instr), decode w = .ok i → encode i = w

/-- R41: a word decodes to an instruction of a row exactly when the row's mask and pattern cover it. -/
def Obligations.DecoderFollowsTheOpcodeTable : Prop :=
  (∀ (w : Wire) (i : Instr), decode w = .ok i → i.row.covers w = true) ∧
  (∀ (w : Wire) (r : Row), r ∈ opcodeTable → r.covers w = true → ∃ i, decode w = .ok i ∧ i.row = r)

/-- R38: both values of `op_sel` are operations, every `din` is a legal operand of either, and so every request word is
an instruction of the core. -/
def Obligations.EveryRequestWordIsAnOperation : Prop :=
  ∀ w : BitVec 65, ∃ operand : Frame,
    (∀ i : Fin 8, operand.get i = w.extractLsb' (56 - 8 * i.val) 8) ∧
    decode (.command w) = .ok (if w.getLsbD 64 then .validate operand else .decrypt operand)

/-- R28: byte `i` of an array is bits 63-8i down to 56-8i of its word, and the word is `BE64` of the array. -/
def Obligations.PackingPutsByteZeroOnTop : Prop :=
  (∀ (a : Frame) (i : Fin 8), (packFrame a).extractLsb' (56 - 8 * i.val) 8 = a.get i) ∧
  (∀ a : Frame, (packFrame a).toNat =
    a.a0.toNat * 2 ^ 56 + a.a1.toNat * 2 ^ 48 + a.a2.toNat * 2 ^ 40 + a.a3.toNat * 2 ^ 32 +
      a.a4.toNat * 2 ^ 24 + a.a5.toNat * 2 ^ 16 + a.a6.toNat * 2 ^ 8 + a.a7.toNat) ∧
  (∀ a : Frame, unpackFrame (packFrame a) = a) ∧
  ∀ w : BitVec 64, packFrame (unpackFrame w) = w

/-- R32, R41 on words written out from the spec's encodings (95_test_vectors.md P1, P2). The spec gives a request 65
bits; that the two request words are read from nine whole bytes is the model's choice (log 6). -/
def Obligations.WrittenOutWordsDecode : Prop :=
  decodeTableWord 72 0x0E0E466208C46BF22 = some (.decrypt ⟨0xE0, 0xE4, 0x66, 0x20, 0x8C, 0x46, 0xBF, 0x22⟩) ∧
  decodeTableWord 72 0x15002EE400D000000 = some (.validate ⟨0x50, 0x02, 0xEE, 0x40, 0x0D, 0x00, 0x00, 0x00⟩) ∧
  decodeTableWord 64 0x42111F720D000000 = some (.frameTemp ⟨0x11, 0x1F, 0x72, 0x00, 0x00, 0x00⟩) ∧
  decodeTableWord 64 0x5002EE400D000000 = some (.frameCo2 ⟨0x02, 0xEE, 0x40, 0x00, 0x00, 0x00⟩) ∧
  decodeTableWord 64 0x9900019A0D000000 = none

/-- R39: a line of text reads back as the line. -/
def Obligations.ReadingAWrittenLineGivesTheLine : Prop :=
  ∀ l : Line, readLine l.text = some l

/-- A step runs the decoded instruction: exec of it, at the state from which its word was taken (R15, R25). That
a waiting reset, the port and the consumer go in this order, one a step, is the model's choice (log 2). -/
def Obligations.StepRunsTheDecodedInstruction : Prop :=
  (∀ (s : State) (w : BitVec 65) (i : Instr),
    s.resetPending = false → s.port = some w → decode (.command w) = .ok i →
    step s = exec i { s with port := none }) ∧
  ∀ (s : State) (w : BitVec 64) (i : Instr),
    s.resetPending = false → s.port = none → s.inbox = some w → decode (.dframe w) = .ok i →
    step s = exec i { s with inbox := none }

/-- A table word put before the machine is what the very next step runs; this loading is the model's choice (log 14). -/
def Obligations.PlacedTableWordIsRunNext : Prop :=
  ∀ (s : State) (nbits w : Nat) (i : Instr), decodeTableWord nbits w = some i →
    step (s.withFetchWord nbits w) = exec i { s with resetPending := false, port := none } ∨
    step (s.withFetchWord nbits w) = exec i { s with resetPending := false, port := none, inbox := none }

/-- What no instruction changes, and what the core's and the consumer's instructions each leave alone (R14, R16, R17,
R53, R66). -/
def Obligations.InstructionsLeaveTheRestUnchanged : Prop :=
  ∀ (i : Instr) (s t : State), exec i s = .next t →
    t.resetPending = s.resetPending ∧ t.port = s.port ∧ t.inbox = s.inbox ∧ t.session = s.session ∧
    t.inputs = s.inputs ∧
    match i with
    | .decrypt _ => t.phase = s.phase ∧ t.polling = s.polling ∧ t.reading = s.reading ∧ t.actions = s.actions
    | .validate _ => t.phase = s.phase ∧ t.polling = s.polling ∧ t.reading = s.reading ∧ t.actions = s.actions
    | .frameTemp _ => t.received = s.received ∧ t.transactions = s.transactions ∧ t.reading.co2 = s.reading.co2
    | .frameCo2 _ =>
      t.received = s.received ∧ t.transactions = s.transactions ∧ t.reading.temperatureC = s.reading.temperatureC

/-! ## The consumer -/

/-- R60, R61: a validated temperature frame sets the temperature to a number of hundredths within half a hundredth of
`value/16 - 273.15`, where `value = 256*valueHi + valueLo`, and changes nothing else. Holds for every tie rule (log 9). -/
def Obligations.TemperatureFrameSetsTheRoundedTemperature : Prop :=
  ∀ (b : FrameBody) (s : State),
    (Instr.frameTemp b).wellFormed = true → s.reading.complete = false →
    ∃ hundredths : Int,
      exec (.frameTemp b) s = .next { s with reading := { s.reading with temperatureC := some hundredths } } ∧
      let tenThousandths : Int := 625 * (256 * (b.valueHi.toNat : Int) + b.valueLo.toNat) - 2731500
      tenThousandths ≤ 100 * hundredths + 50 ∧ 100 * hundredths ≤ tenThousandths + 50

/-- R61 and 90_conflicts.md C2: the spec's worked temperatures (0.79, 21.85 and -273.15 degrees), and the tie of
92_eei_decisions.md D18. That they are whole hundredths is the model's choice (log 9). -/
def Obligations.WorkedTemperaturesRoundAsTheSpecSays : Prop :=
  temperatureOf 4383 = 79 ∧ temperatureOf 4720 = 2185 ∧ temperatureOf 0 = -27315 ∧
  (temperatureOf 4370 = -2 ∨ temperatureOf 4370 = -3)

/-- R60, R62: a validated CO2 frame sets co2 to the 16-bit value, whatever it is, and changes nothing else. -/
def Obligations.Co2FrameSetsTheConcentration : Prop :=
  ∀ (b : FrameBody) (s : State),
    (Instr.frameCo2 b).wellFormed = true → s.reading.complete = false →
    exec (.frameCo2 b) s = .next { s with
      reading := { s.reading with co2 := some (BitVec.ofNat 16 (256 * b.valueHi.toNat + b.valueLo.toNat)) } }

/-- R64: a complete Reading accepts no further frames. -/
def Obligations.CompleteReadingAcceptsNoFurtherFrames : Prop :=
  ∀ (b : FrameBody) (s : State), s.reading.complete = true →
    ((Instr.frameTemp b).wellFormed = true → exec (.frameTemp b) s = .next s) ∧
    ((Instr.frameCo2 b).wellFormed = true → exec (.frameCo2 b) s = .next s)

/-- R58, R65, R69, R71: a frame of either row whose checksum is wrong changes no Reading; polling stops, then
ChecksumError is reported. That a frame presented to the consumer is checked by its row is the model's inference (log 7);
that the report says `rejected` while no transfer is outstanding, and a transfer's failure otherwise, is the model's
choice (log 20). -/
def Obligations.InvalidFrameOfARowIsAChecksumError : Prop :=
  ∀ (i : Instr) (s : State), i.wellFormed = false →
    exec i s = .next { s with
      polling := false
      phase := .idle
      actions := s.actions ++ [.stopPolling,
        .report (if s.phase = .idle then .rejected .checksumError else .transferFailed .checksumError)] }

/-- R63, R36: a validated frame with any other op byte is ignored. -/
def Obligations.UnlistedOpCodeIsIgnored : Prop :=
  ∀ (s : State) (f : Frame),
    s.resetPending = false → s.port = none → s.inbox = some (packFrame f) → validate f = true →
    f.get 0 ≠ 0x42 → f.get 0 ≠ 0x50 → step s = .next { s with inbox := none }

/-- R66: a step on a validated frame before the consumer is `Ingest`, written out. That a frame which the host did not
pass is ingested too, in every phase of the host, is the model's choice (log 24). -/
def Obligations.ConsumerStepIsIngest : Prop :=
  ∀ (s : State) (f : Frame),
    s.resetPending = false → s.port = none → s.inbox = some (packFrame f) → validate f = true →
    step s = .next { s with
      inbox := none
      reading :=
        if s.reading.temperatureC.isSome ∧ s.reading.co2.isSome then s.reading
        else if f.get 0 = 0x42 then { s.reading with temperatureC := some (temperatureOf (f.get 1 ++ f.get 2)) }
        else if f.get 0 = 0x50 then { s.reading with co2 := some (f.get 1 ++ f.get 2) }
        else s.reading }

/-- R64: from the empty Reading, a sequence of frames completes exactly when it holds a temperature frame and a CO2
frame, in either order. -/
def Obligations.ReadingCompletesExactlyWithBothOpCodes : Prop :=
  ∀ frames : List Frame,
    (frames.foldl ingest Reading.empty).complete = true ↔
      (∃ f ∈ frames, f.get 0 = 0x42) ∧ ∃ f ∈ frames, f.get 0 = 0x50

/-- R64: the order of the two op-codes does not matter. -/
def Obligations.OrderOfTheTwoOpCodesDoesNotMatter : Prop :=
  ∀ f g : Frame, f.get 0 = 0x42 → g.get 0 = 0x50 →
    ingest (ingest Reading.empty f) g = ingest (ingest Reading.empty g) f ∧
    ingest (ingest Reading.empty f) g =
      ⟨some (measurement (g.get 1) (g.get 2)), some (temperatureOf (measurement (f.get 1) (f.get 2)))⟩

/-! ## The boundary: operands, requests, responses, reset -/

/-- R21, R24: eight bytes are a frame in delivery order; an operand of any other length is refused. That a delivery is
one unit of bytes, and that one of another length is refused in the step in which the polling host takes it, is the
model's choice (log 11): U13 leaves open how frames come out of what the transport delivers. -/
def Obligations.OperandThatIsNotEightBytesIsRefused : Prop :=
  (∀ f : Frame, frameOfBytes (indices.map f.get) = .ok f) ∧
  (∀ bytes : List Byte, bytes.length ≠ 8 → frameOfBytes bytes = .error (.operandLength bytes.length)) ∧
  ∀ (s : State) (bytes : List Byte) (rest : List Input),
    s.Quiescent → s.phase = .polling → s.inputs = .frame bytes :: rest → bytes.length ≠ 8 →
    step s = .refused (.operandLength bytes.length)

/-- R26: a request is taken while no operation is in progress; a second one is refused. -/
def Obligations.OverlappingRequestIsRefused : Prop :=
  ∀ (s : State) (w : BitVec 65),
    (s.port = none → s.present w = .next { s with port := some w, received := none }) ∧
    (s.port.isSome = true → s.present w = .refused .overlappingRequest)

/-- R33: the part of a response that the operation does not drive is refused; the part it drives is read. -/
def Obligations.UndrivenPartOfAResponseIsRefused : Prop :=
  ∀ (operand : Frame) (s : State),
    (∃ t r, exec (.decrypt operand) s = .next t ∧ t.received = some r ∧
      r.dout = .ok (decrypt Config.KEY operand) ∧ r.valid = .error .undrivenResponse) ∧
    ∃ t r, exec (.validate operand) s = .next t ∧ t.received = some r ∧
      r.valid = .ok (validate operand) ∧ r.dout = .error .undrivenResponse

/-- R18, R83: after reset no operation is in progress and a request is accepted at once; it is answered as at any other
time. The empty records are the model's choice (log 3). -/
def Obligations.ResetMachineAcceptsARequestAtOnce : Prop :=
  State.reset.port = none ∧ State.reset.resetPending = false ∧
  ∀ r : Request, ∃ s t, State.reset.present (encodeRequest r) = .next s ∧ step s = .next t ∧
    t.port = none ∧ t.transactions = [⟨r, answer r⟩]

/-- R83, R84: a reset that arrives during an operation abandons it and no response is produced. That nothing else
changes, so that the host, the consumer and the session survive the reset, is the model's choice (log 18): the rules
speak of the core. -/
def Obligations.ResetAbandonsTheOperationInProgress : Prop :=
  ∀ s : State, s.resetPending = true → step s = .next { s with resetPending := false, port := none }

/-- R84: a host that waits for the response about a frame it is handling, and whose request was abandoned, asks again.
That it does so is the model's choice, and so is that a bare request is not asked again (log 18). -/
def Obligations.HostRepeatsAnAbandonedRequest : Prop :=
  ∀ s : State, s.Quiescent → s.received = none →
    (∀ raw, s.phase = .awaitDecrypt raw →
      step s = .next { s with port := some (encodeRequest ⟨.decrypt, raw⟩) }) ∧
    ∀ d, s.phase = .awaitVerdict d →
      step s = .next { s with port := some (encodeRequest ⟨.validate, d⟩) }

/-! ## The host and the session -/

/-- R77: with nothing to take the waiting machine stays as it is, which is the model's choice (log 22). -/
def Obligations.WaitingMachineStaysAsItIs : Prop :=
  ∀ s : State, s.Quiescent → s.phase = .idle ∨ s.phase = .polling → s.inputs = [] → step s = .next s

/-- R59, R74, R76 and log 19: a transfer call starts from an empty Reading, primes the endpoint with 8 bytes and polls
it with 8 transfers in flight and 64-byte buffers; it needs a session and no outstanding transfer. That the priming
transfer always succeeds is the model's choice (log 19), and so is the refusal of a call out of place (log 13). -/
def Obligations.TransferStartsFromAnEmptyReading : Prop :=
  ∀ (s : State) (rest : List Input), s.Quiescent → s.inputs = .call .transfer :: rest →
    (s.phase = .idle → s.session.isSome = true → step s = .next { s with
      inputs := rest
      polling := true
      phase := .polling
      reading := ⟨none, none⟩
      actions := s.actions ++ [.initialTransfer 8, .startPolling 8 64] }) ∧
    (s.phase = .idle → s.session = none → step s = .refused .noSession) ∧
    (s.phase = .polling → step s = .refused .concurrentCall)

/-- R78: connect, in its four outcomes. That opening, claiming and binding always succeed, and that a failed connect
closes nothing, is the model's choice (log 16). -/
def Obligations.ConnectFailsWhereTheTransportFails : Prop :=
  ∀ (s : State) (ids : Option UsbIds) (a : ConnectAnswers) (rest : List Input),
    s.Quiescent → s.phase = .idle → s.session = none → s.inputs = .call (.connect ids a) :: rest →
    let used := ids.getD ⟨0x04D9, 0xA052⟩
    let handshake : ControlTransfer :=
      ⟨0x21, 0x09, 0x0300, 0, ⟨0xC4, 0xC6, 0xC0, 0x92, 0x40, 0x23, 0xDC, 0x96⟩⟩
    (a.devicePresent = false → step s = .next { s with
      inputs := rest
      actions := s.actions ++ [.locateDevice used, .report (.connectFailed .deviceNotFound)] }) ∧
    (a.devicePresent = true → a.interfacePresent = false → step s = .next { s with
      inputs := rest
      actions := s.actions ++
        [.locateDevice used, .openDevice, .report (.connectFailed .interfaceNotFound)] }) ∧
    (a.devicePresent = true → a.interfacePresent = true → a.controlOk = false → step s = .next { s with
      inputs := rest
      actions := s.actions ++ [.locateDevice used, .openDevice, .selectInterface 0, .controlTransfer handshake,
        .report (.connectFailed .controlTransferError)] }) ∧
    (a.devicePresent = true → a.interfacePresent = true → a.controlOk = true → step s = .next { s with
      inputs := rest
      session := some ⟨used, 0, 0⟩
      actions := s.actions ++ [.locateDevice used, .openDevice, .selectInterface 0, .controlTransfer handshake,
        .claimInterface, .bindEndpoint 0, .report .connected] })

/-- R79, R72: disconnect attempts both steps and reports what failed. That it reports both outcomes and always closes the
session is the model's choice (log 21). -/
def Obligations.DisconnectAttemptsBothSteps : Prop :=
  ∀ (s : State) (releaseOk closeOk : Bool) (rest : List Input),
    s.Quiescent → s.phase = .idle → s.session.isSome = true →
    s.inputs = .call (.disconnect releaseOk closeOk) :: rest →
    step s = .next { s with
      inputs := rest
      session := none
      actions := s.actions ++
        [.releaseInterface, .closeDevice, .report (.disconnected releaseOk closeOk)] }

/-- R69, R71: on verdict 0 the host stops polling, then fails the transfer with ChecksumError; the frame is not given to
the consumer. -/
def Obligations.VerdictZeroEndsTheTransferWithChecksumError : Prop :=
  ∀ (s : State) (d : Frame), s.Quiescent → s.phase = .awaitVerdict d → s.received = some (.verdict false) →
    step s = .next { s with
      polling := false
      phase := .idle
      actions := s.actions ++ [.stopPolling, .report (.transferFailed .checksumError)] }

/-- R68, R71: on a transport error event the host stops polling, then fails the transfer with EndpointTransferError. -/
def Obligations.TransportErrorEndsTheTransfer : Prop :=
  ∀ (s : State) (rest : List Input), s.Quiescent → s.phase = .polling → s.inputs = .transportError :: rest →
    step s = .next { s with
      inputs := rest
      polling := false
      phase := .idle
      actions := s.actions ++ [.stopPolling, .report (.transferFailed .endpointTransferError)] }

/-- R71: stopping the poll is idempotent; only the record of it grows. -/
def Obligations.StoppingThePollIsIdempotent : Prop :=
  ∀ s : State, s.stopPolling.polling = false ∧
    s.stopPolling.stopPolling = { s.stopPolling with actions := s.stopPolling.actions ++ [.stopPolling] }

/-- R75, 92_eei_decisions.md D22: what the endpoint sends while no transfer is outstanding is not processed. That it is
taken and changes nothing else is the model's inference (log 12). -/
def Obligations.DeliveriesOutsideATransferAreDropped : Prop :=
  ∀ (s : State) (input : Input) (rest : List Input), s.Quiescent → s.phase = .idle → s.inputs = input :: rest →
    (∃ bytes, input = .frame bytes ∨ input = .initialData bytes ∨ input = .transportError) →
    step s = .next { s with inputs := rest }

/-- R74, U10 and log 10: the data of the initial transfer is handled as a frame or dropped, and which is not said. -/
def Obligations.InitialDataIsHandledAsAFrameOrDropped : Prop :=
  ∀ (s : State) (raw : Frame) (rest : List Input), s.Quiescent → s.phase = .polling →
    s.inputs = .initialData raw.toList :: rest →
    step s = step { s with inputs := .frame raw.toList :: rest } ∨ step s = .next { s with inputs := rest }

/-- R75: from a polling host with a raw frame at the head of its inputs, the machine's own steps come to `OnFrame`:
seven steps for a validated frame, five for one that is not. How many steps it takes rests on the model's choice that
one step is one action of one agent (log 2). -/
def Obligations.HandlingAFrameComesToOnFrame : Prop :=
  ∀ (s : State) (raw : Frame) (rest : List Input),
    s.Quiescent → s.phase = .polling → s.inputs = .frame raw.toList :: rest →
    let d := decrypt Config.KEY raw
    let after : State := { s with
      inputs := rest
      received := some (.verdict (validate d))
      transactions := s.transactions ++
        [⟨⟨.decrypt, raw⟩, .frame d⟩, ⟨⟨.validate, d⟩, .verdict (validate d)⟩] }
    match onFrame s.reading raw with
    | .goOn r => core.run 7 s = .next { after with reading := r }
    | .complete r => core.run 7 s = .next { after with
        reading := r
        polling := false
        phase := .idle
        actions := s.actions ++ [.stopPolling, .report (.completed r)] }
    | .failed e => core.run 5 s = .next { after with
        polling := false
        phase := .idle
        actions := s.actions ++ [.stopPolling, .report (.transferFailed e)] }

/-- R75: what `OnFrame` is: DECRYPT, VALIDATE, Ingest, Complete. -/
def Obligations.OnFrameFollowsTheVerdictAndTheReading : Prop :=
  ∀ (r : Reading) (raw : Frame),
    (validate (decrypt Config.KEY raw) = false → onFrame r raw = .failed .checksumError) ∧
    (validate (decrypt Config.KEY raw) = true →
      ((ingest r (decrypt Config.KEY raw)).complete = true →
        onFrame r raw = .complete (ingest r (decrypt Config.KEY raw))) ∧
      ((ingest r (decrypt Config.KEY raw)).complete = false →
        onFrame r raw = .goOn (ingest r (decrypt Config.KEY raw))))

/-! ## Whole-machine statements -/

/-- R18, R71, R92: the reset machine meets the invariant. The values this rests on (an idle host, no polling, no session,
no action on record) are the model's choice (log 4), and so is the empty record of transactions (log 3). -/
def Obligations.ResetMachineMeetsTheInvariant : Prop := State.reset.Inv

/-- R64, R70, R71, R92: every step keeps the invariant: the endpoint is polled exactly while a transfer is outstanding,
polling is stopped before a transfer's end is reported, no transfer ends twice, only complete Readings are reported,
and every response on record is that of its request. -/
def Obligations.EveryStepKeepsTheInvariant : Prop :=
  ∀ s t : State, s.Inv → step s = .next t → t.Inv

/-- R67, R91, D20: while the outside keeps its side (R76, R79, R80) every step answers a next state: nothing is refused
and nothing is stuck. That its side holds deliveries of eight bytes (log 11), `connect` without a session and the other
calls with one (log 13), and that a machine with nothing to take steps to itself (log 22), is the model's choice. -/
def Obligations.LegalInputsAreNeverRefused : Prop :=
  ∀ s : State, s.Inv → (∀ input rest, s.inputs = input :: rest → input.Legal s) → ∃ t, step s = .next t
end

