-- ==== Sys2Proof/Laws/Arrays.lean ====
section
/-! SUPPORT. Eight-entry arrays: reading, writing, and equality entry by entry. -/

namespace Sys2Proof.Array8

variable {α : Type}

@[simp] theorem get_ofFn (f : Fin 8 → α) (i : Fin 8) : (ofFn f).get i = f i := by
  fin_cases i <;> rfl

@[simp] theorem ofFn_get (a : Array8 α) : ofFn a.get = a := rfl

@[simp] theorem get_set_same (a : Array8 α) (i : Fin 8) (v : α) : (a.set i v).get i = v := by
  fin_cases i <;> rfl

theorem get_set_other (a : Array8 α) {i j : Fin 8} (v : α) (h : j ≠ i) : (a.set i v).get j = a.get j := by
  fin_cases i <;> fin_cases j <;> first | rfl | exact absurd rfl h

theorem ext_get {a b : Array8 α} (h : ∀ i, a.get i = b.get i) : a = b := by
  rw [← ofFn_get a, ← ofFn_get b, funext h]

@[simp] theorem toList_length (a : Array8 α) : a.toList.length = 8 := rfl

end Sys2Proof.Array8
end

