-- ==== Sys2Proof/Laws/Bytes.lean ====
section
/-! SUPPORT. The byte operations of DECRYPT and VALIDATE, from naturals with a mask to byte arithmetic. -/

namespace Sys2Proof.Machine

theorem masked_toNat (n : Nat) : (BitVec.ofNat 8 (n &&& 0xFF)).toNat = n % 256 := by
  rw [BitVec.toNat_ofNat, Nat.and_two_pow_sub_one_eq_mod n 8]
  omega

/-- `(v >> 4) | (v << 4)` on bytes. -/
theorem nibbleSwap_eq (v : Byte) : nibbleSwap v = (v >>> 4) ||| (v <<< 4) := by
  apply BitVec.eq_of_toNat_eq
  rw [nibbleSwap, masked_toNat, Nat.or_mod_two_pow (n := 8)]
  have : v.toNat >>> 4 < 256 := by rw [Nat.shiftRight_eq_div_pow]; omega
  simp [Nat.mod_eq_of_lt this]

/-- `(x >> 3) | (p << 5)` on bytes. -/
theorem rotateByte_eq (x p : Byte) : rotateByte x p = (x >>> 3) ||| (p <<< 5) := by
  apply BitVec.eq_of_toNat_eq
  rw [rotateByte, masked_toNat, Nat.or_mod_two_pow (n := 8)]
  have : x.toNat >>> 3 < 256 := by rw [Nat.shiftRight_eq_div_pow]; omega
  simp [Nat.mod_eq_of_lt this]

/-- The subtraction with `0x100` added first is subtraction of bytes. -/
theorem subtractByte_eq (t c : Byte) : subtractByte t c = t - c := by
  apply BitVec.eq_of_toNat_eq
  rw [subtractByte, masked_toNat, BitVec.toNat_sub]
  omega

/-- The checksum is the sum of bytes. -/
theorem checksum_eq (d : Frame) : checksum d = d.a0 + d.a1 + d.a2 := by
  apply BitVec.eq_of_toNat_eq
  simp [checksum, BitVec.toNat_add]

theorem validate_iff (d : Frame) :
    validate d = true ↔ d.a4 = Config.TERMINATOR ∧ d.a3 = d.a0 + d.a1 + d.a2 := by
  simp [validate, checksum_eq]

/-- A context row's constraint is that its frame is valid (30_encoding.md R41). -/
theorem validate_toFrame (op : Byte) (b : FrameBody) : validate (b.toFrame op) = b.checksumHolds op := by
  rw [Bool.eq_iff_iff, validate_iff]
  simp [FrameBody.toFrame, FrameBody.checksumHolds]

end Sys2Proof.Machine
end

