-- ==== Sys2Proof/Laws/State.lean ====
section
/-! SUPPORT. One lemma per field per update of the state, each true by rfl. -/

namespace Sys2Proof.Machine.State

variable (s : State)

/-! `respond` -/

@[simp] theorem respond_resetPending (q : Request) (r : Response) : (s.respond q r).resetPending = s.resetPending := rfl
@[simp] theorem respond_port (q : Request) (r : Response) : (s.respond q r).port = s.port := rfl
@[simp] theorem respond_inbox (q : Request) (r : Response) : (s.respond q r).inbox = s.inbox := rfl
@[simp] theorem respond_received (q : Request) (r : Response) : (s.respond q r).received = some r := rfl
@[simp] theorem respond_transactions (q : Request) (r : Response) : (s.respond q r).transactions = s.transactions ++ [⟨q, r⟩] := rfl
@[simp] theorem respond_phase (q : Request) (r : Response) : (s.respond q r).phase = s.phase := rfl
@[simp] theorem respond_polling (q : Request) (r : Response) : (s.respond q r).polling = s.polling := rfl
@[simp] theorem respond_reading (q : Request) (r : Response) : (s.respond q r).reading = s.reading := rfl
@[simp] theorem respond_session (q : Request) (r : Response) : (s.respond q r).session = s.session := rfl
@[simp] theorem respond_inputs (q : Request) (r : Response) : (s.respond q r).inputs = s.inputs := rfl
@[simp] theorem respond_actions (q : Request) (r : Response) : (s.respond q r).actions = s.actions := rfl

/-! `offer` -/

@[simp] theorem offer_resetPending (f : Frame) : (s.offer f).resetPending = s.resetPending := rfl
@[simp] theorem offer_port (f : Frame) : (s.offer f).port = s.port := rfl
@[simp] theorem offer_inbox (f : Frame) : (s.offer f).inbox = some (packFrame f) := rfl
@[simp] theorem offer_received (f : Frame) : (s.offer f).received = s.received := rfl
@[simp] theorem offer_transactions (f : Frame) : (s.offer f).transactions = s.transactions := rfl
@[simp] theorem offer_phase (f : Frame) : (s.offer f).phase = s.phase := rfl
@[simp] theorem offer_polling (f : Frame) : (s.offer f).polling = s.polling := rfl
@[simp] theorem offer_reading (f : Frame) : (s.offer f).reading = s.reading := rfl
@[simp] theorem offer_session (f : Frame) : (s.offer f).session = s.session := rfl
@[simp] theorem offer_inputs (f : Frame) : (s.offer f).inputs = s.inputs := rfl
@[simp] theorem offer_actions (f : Frame) : (s.offer f).actions = s.actions := rfl

/-! `takeReset` -/

@[simp] theorem takeReset_resetPending : (s.takeReset).resetPending = false := rfl
@[simp] theorem takeReset_port : (s.takeReset).port = none := rfl
@[simp] theorem takeReset_inbox : (s.takeReset).inbox = s.inbox := rfl
@[simp] theorem takeReset_received : (s.takeReset).received = s.received := rfl
@[simp] theorem takeReset_transactions : (s.takeReset).transactions = s.transactions := rfl
@[simp] theorem takeReset_phase : (s.takeReset).phase = s.phase := rfl
@[simp] theorem takeReset_polling : (s.takeReset).polling = s.polling := rfl
@[simp] theorem takeReset_reading : (s.takeReset).reading = s.reading := rfl
@[simp] theorem takeReset_session : (s.takeReset).session = s.session := rfl
@[simp] theorem takeReset_inputs : (s.takeReset).inputs = s.inputs := rfl
@[simp] theorem takeReset_actions : (s.takeReset).actions = s.actions := rfl

/-! `act` -/

@[simp] theorem act_resetPending (a : HostAction) : (s.act a).resetPending = s.resetPending := rfl
@[simp] theorem act_port (a : HostAction) : (s.act a).port = s.port := rfl
@[simp] theorem act_inbox (a : HostAction) : (s.act a).inbox = s.inbox := rfl
@[simp] theorem act_received (a : HostAction) : (s.act a).received = s.received := rfl
@[simp] theorem act_transactions (a : HostAction) : (s.act a).transactions = s.transactions := rfl
@[simp] theorem act_phase (a : HostAction) : (s.act a).phase = s.phase := rfl
@[simp] theorem act_polling (a : HostAction) : (s.act a).polling = s.polling := rfl
@[simp] theorem act_reading (a : HostAction) : (s.act a).reading = s.reading := rfl
@[simp] theorem act_session (a : HostAction) : (s.act a).session = s.session := rfl
@[simp] theorem act_inputs (a : HostAction) : (s.act a).inputs = s.inputs := rfl
@[simp] theorem act_actions (a : HostAction) : (s.act a).actions = s.actions ++ [a] := rfl

/-! `stopPolling` -/

@[simp] theorem stopPolling_resetPending : (s.stopPolling).resetPending = s.resetPending := rfl
@[simp] theorem stopPolling_port : (s.stopPolling).port = s.port := rfl
@[simp] theorem stopPolling_inbox : (s.stopPolling).inbox = s.inbox := rfl
@[simp] theorem stopPolling_received : (s.stopPolling).received = s.received := rfl
@[simp] theorem stopPolling_transactions : (s.stopPolling).transactions = s.transactions := rfl
@[simp] theorem stopPolling_phase : (s.stopPolling).phase = s.phase := rfl
@[simp] theorem stopPolling_polling : (s.stopPolling).polling = false := rfl
@[simp] theorem stopPolling_reading : (s.stopPolling).reading = s.reading := rfl
@[simp] theorem stopPolling_session : (s.stopPolling).session = s.session := rfl
@[simp] theorem stopPolling_inputs : (s.stopPolling).inputs = s.inputs := rfl
@[simp] theorem stopPolling_actions : (s.stopPolling).actions = s.actions ++ [.stopPolling] := rfl

/-! `beginTransfer` -/

@[simp] theorem beginTransfer_resetPending : (s.beginTransfer).resetPending = s.resetPending := rfl
@[simp] theorem beginTransfer_port : (s.beginTransfer).port = s.port := rfl
@[simp] theorem beginTransfer_inbox : (s.beginTransfer).inbox = s.inbox := rfl
@[simp] theorem beginTransfer_received : (s.beginTransfer).received = s.received := rfl
@[simp] theorem beginTransfer_transactions : (s.beginTransfer).transactions = s.transactions := rfl
@[simp] theorem beginTransfer_phase : (s.beginTransfer).phase = .polling := rfl
@[simp] theorem beginTransfer_polling : (s.beginTransfer).polling = true := rfl
@[simp] theorem beginTransfer_reading : (s.beginTransfer).reading = Reading.empty := rfl
@[simp] theorem beginTransfer_session : (s.beginTransfer).session = s.session := rfl
@[simp] theorem beginTransfer_inputs : (s.beginTransfer).inputs = s.inputs := rfl
@[simp] theorem beginTransfer_actions : (s.beginTransfer).actions = s.actions ++ [.initialTransfer Config.frameSize] ++ [.startPolling Config.pollWindow Config.transferBuffer] := rfl

/-! `finishTransfer` -/

@[simp] theorem finishTransfer_resetPending : (s.finishTransfer).resetPending = s.resetPending := rfl
@[simp] theorem finishTransfer_port : (s.finishTransfer).port = s.port := rfl
@[simp] theorem finishTransfer_inbox : (s.finishTransfer).inbox = s.inbox := rfl
@[simp] theorem finishTransfer_received : (s.finishTransfer).received = s.received := rfl
@[simp] theorem finishTransfer_transactions : (s.finishTransfer).transactions = s.transactions := rfl
@[simp] theorem finishTransfer_phase : (s.finishTransfer).phase = .idle := rfl
@[simp] theorem finishTransfer_polling : (s.finishTransfer).polling = false := rfl
@[simp] theorem finishTransfer_reading : (s.finishTransfer).reading = s.reading := rfl
@[simp] theorem finishTransfer_session : (s.finishTransfer).session = s.session := rfl
@[simp] theorem finishTransfer_inputs : (s.finishTransfer).inputs = s.inputs := rfl
@[simp] theorem finishTransfer_actions : (s.finishTransfer).actions = s.actions ++ [.stopPolling] ++ [.report (.completed s.reading)] := rfl

/-! `failTransfer` -/

@[simp] theorem failTransfer_resetPending (e : ErrorKind) : (s.failTransfer e).resetPending = s.resetPending := rfl
@[simp] theorem failTransfer_port (e : ErrorKind) : (s.failTransfer e).port = s.port := rfl
@[simp] theorem failTransfer_inbox (e : ErrorKind) : (s.failTransfer e).inbox = s.inbox := rfl
@[simp] theorem failTransfer_received (e : ErrorKind) : (s.failTransfer e).received = s.received := rfl
@[simp] theorem failTransfer_transactions (e : ErrorKind) : (s.failTransfer e).transactions = s.transactions := rfl
@[simp] theorem failTransfer_phase (e : ErrorKind) : (s.failTransfer e).phase = .idle := rfl
@[simp] theorem failTransfer_polling (e : ErrorKind) : (s.failTransfer e).polling = false := rfl
@[simp] theorem failTransfer_reading (e : ErrorKind) : (s.failTransfer e).reading = s.reading := rfl
@[simp] theorem failTransfer_session (e : ErrorKind) : (s.failTransfer e).session = s.session := rfl
@[simp] theorem failTransfer_inputs (e : ErrorKind) : (s.failTransfer e).inputs = s.inputs := rfl
@[simp] theorem failTransfer_actions (e : ErrorKind) : (s.failTransfer e).actions = s.actions ++ [.stopPolling] ++
      [.report (if s.phase = .idle then .rejected e else .transferFailed e)] := rfl

end Sys2Proof.Machine.State
end

