-- ==== Sys2Proof/Laws/Ops.lean ====
section
/-! SUPPORT. What each shared operation can do, said once. -/

namespace Sys2Proof.Machine

/-- A request is accepted exactly while no operation is in progress. -/
theorem present_next_iff (w : BitVec 65) (s t : State) :
    s.present w = .next t ↔ s.port = none ∧ t = { s with port := some w, received := none } := by
  unfold State.present
  split <;> simp_all [eq_comm]

/-- A delivery is a frame exactly when it has eight bytes. -/
theorem frameOfBytes_ok_iff (bytes : List Byte) (f : Frame) :
    frameOfBytes bytes = .ok f ↔ bytes = f.toList := by
  unfold frameOfBytes
  split
  · cases f
    simp [Array8.toList]
  · rename_i h
    constructor
    · intro e
      cases e
    · intro e
      exact absurd e (h _ _ _ _ _ _ _ _)

@[simp] theorem frameOfBytes_toList (f : Frame) : frameOfBytes f.toList = .ok f :=
  (frameOfBytes_ok_iff _ _).2 rfl

/-- A valid decoded frame has its effect on the Reading and on nothing else. -/
theorem consume_valid {d : Frame} (h : validate d = true) (effect : Reading → Reading) (s : State) :
    consume d effect s = { s with reading := effect s.reading } := by
  simp [consume, h]

/-- A decoded frame that is not valid is a `ChecksumError`. -/
theorem consume_invalid {d : Frame} (h : validate d = false) (effect : Reading → Reading) (s : State) :
    consume d effect s = s.failTransfer .checksumError := by
  simp [consume, h]

/-- Issuing a request to an idle core. -/
theorem issue_idle {s : State} (h : s.port = none) (r : Request) (p : HostPhase) :
    issue r p s = .next { s with port := some (encodeRequest r), received := none, phase := p } := by
  simp [issue, State.present, h]

/-- Handling of a raw frame starts with a request to the idle core. -/
theorem acceptRaw_toList {s : State} (h : s.port = none) (raw : Frame) :
    acceptRaw raw.toList s =
      .next { s with port := some (encodeRequest ⟨.decrypt, raw⟩), received := none, phase := .awaitDecrypt raw } := by
  simp [acceptRaw, issue_idle h]

/-- What the next step is, case by case. -/
theorem fetch_reset {s : State} (h : s.resetPending = true) : fetch s = .reset := by
  simp [fetch, h]

theorem fetch_request {s : State} {w : BitVec 65} (hr : s.resetPending = false) (hp : s.port = some w) :
    fetch s = .instr (decodeRequest w).toInstr { s with port := none } := by
  simp [fetch, hr, hp]

theorem fetch_row {s : State} {w : BitVec 64} {i : Instr} (hr : s.resetPending = false) (hp : s.port = none)
    (hi : s.inbox = some w) (hd : decodeDframe w = .ok i) : fetch s = .instr i { s with inbox := none } := by
  simp [fetch, hr, hp, hi, hd]

theorem fetch_unlisted {s : State} {w : BitVec 64} {e : DecodeError} (hr : s.resetPending = false)
    (hp : s.port = none) (hi : s.inbox = some w) (hd : decodeDframe w = .error e) :
    fetch s = .unlisted (unpackFrame w) { s with inbox := none } := by
  simp [fetch, hr, hp, hi, hd]

theorem fetch_host {s : State} (hr : s.resetPending = false) (hp : s.port = none) (hi : s.inbox = none) :
    fetch s = .host := by
  simp [fetch, hr, hp, hi]

end Sys2Proof.Machine
end

