-- ==== Sys2Proof/Laws/PerInstr.lean ====
section
/-! SUPPORT. Per-instruction laws. Family EncodedRow: the words of an instruction lie in its row of the opcode table. -/

namespace Sys2Proof.Laws.EncodedRow

/-- The encoding of an instruction has its row's format and, under its row's mask, its row's pattern (R41). -/
def Statement (i : Instr) : Prop := i.row.covers (encode i) = true

theorem masked {w M P : Nat} {x m p : BitVec w} (h : x &&& m = p) (hm : m.toNat = M) (hp : p.toNat = P) :
    (x.toNat &&& M == P) = true := by
  rw [← hm, ← hp, ← h, BitVec.toNat_and, beq_self_eq_true]

/-- A mask of two appended parts masks part by part. -/
theorem append_masked {v w : Nat} {a m p : BitVec v} {b n q : BitVec w} (ha : a &&& m = p) (hb : b &&& n = q) :
    (a ++ b) &&& (m ++ n) = p ++ q := by
  rw [BitVec.and_append, ha, hb]

theorem kept {w : Nat} (x : BitVec w) : x &&& BitVec.allOnes w = x := BitVec.and_allOnes

theorem dropped {w : Nat} (x : BitVec w) : x &&& 0#w = 0#w := BitVec.and_zero

/-- The mask of the `CMD` rows keeps `op_sel`. -/
theorem select_masked (b : BitVec 1) (x : BitVec 64) :
    (b ++ x : BitVec 65) &&& (1#1 ++ 0#64) = (b ++ 0#64 : BitVec 65) :=
  append_masked (kept b) (dropped x)

/-- The mask of the `DFRAME` rows keeps bytes 0 and 4. -/
theorem dframe_masked (a0 a1 a2 a3 a4 a5 a6 a7 : Byte) :
    packFrame ⟨a0, a1, a2, a3, a4, a5, a6, a7⟩ &&& packFrame ⟨0xFF, 0, 0, 0, 0xFF, 0, 0, 0⟩ =
      packFrame ⟨a0, 0, 0, 0, a4, 0, 0, 0⟩ :=
  append_masked (append_masked (append_masked (append_masked (append_masked (append_masked (append_masked
    (kept a0) (dropped a1)) (dropped a2)) (dropped a3)) (kept a4)) (dropped a5)) (dropped a6)) (dropped a7)

theorem decrypt (frame : Frame) : Statement (.decrypt frame) := by
  simp only [Statement, Row.covers, Instr.row, encode, Row.decrypt, Wire.format, Wire.toNat, encodeRequest]
  exact masked (select_masked _ _) rfl rfl

theorem validate (decoded : Frame) : Statement (.validate decoded) := by
  simp only [Statement, Row.covers, Instr.row, encode, Row.validate, Wire.format, Wire.toNat, encodeRequest]
  exact masked (select_masked _ _) rfl rfl

theorem frameTemp (body : FrameBody) : Statement (.frameTemp body) := by
  simp only [Statement, Row.covers, Instr.row, encode, Row.frameTemp, Wire.format, Wire.toNat, FrameBody.toFrame]
  exact masked (dframe_masked _ _ _ _ _ _ _ _) rfl rfl

theorem frameCo2 (body : FrameBody) : Statement (.frameCo2 body) := by
  simp only [Statement, Row.covers, Instr.row, encode, Row.frameCo2, Wire.format, Wire.toNat, FrameBody.toFrame]
  exact masked (dframe_masked _ _ _ _ _ _ _ _) rfl rfl

end Sys2Proof.Laws.EncodedRow
end

