-- ==== Sys2Proof/Laws/Safety.lean ====
section
/-! SUPPORT. The record of actions, read action by action. -/

namespace Sys2Proof.Machine

@[simp] theorem pollingAfter_nil : pollingAfter [] = false := rfl

theorem pollingAfter_append (actions : List HostAction) (a : HostAction) :
    pollingAfter (actions ++ [a]) = a.pollsAfter (pollingAfter actions) := by
  simp [pollingAfter]

/-- A record stays quiet when an action is added that ends no transfer, or ends one after polling was stopped. -/
theorem QuietReports.append {actions : List HostAction} {a : HostAction} (h : QuietReports actions)
    (ha : a.endsTransfer = true → pollingAfter actions = false) : QuietReports (actions ++ [a]) := by
  intro before x after split hx
  rcases List.eq_nil_or_concat after with rfl | ⟨earlier, y, rfl⟩
  · obtain ⟨same, last⟩ := List.append_inj' split rfl
    obtain rfl : a = x := by simpa using last
    exact same ▸ ha hx
  · have parts : actions ++ [a] = (before ++ x :: earlier) ++ [y] := by simpa using split
    exact h before x earlier (List.append_inj_left' parts rfl) hx

/-- A record in which no transfer ends is quiet. -/
theorem QuietReports.of_none_ends {actions : List HostAction} (h : ∀ a ∈ actions, a.endsTransfer = false) :
    QuietReports actions := by
  intro before x after split hx
  rw [h x (by simp [split])] at hx
  cases hx

/-- The host moves exactly when nothing else does. -/
theorem step_quiescent {s : State} (h : s.Quiescent) : step s = hostStep s := by
  obtain ⟨hr, hp, hi⟩ := h
  simp [step, fetch, hr, hp, hi]

/-- The core's instruction that a request is answers with the request's own transaction. -/
theorem exec_toInstr (r : Request) (s : State) : exec r.toInstr s = .next (s.respond r (answer r)) := by
  obtain ⟨op, operand⟩ := r
  cases op <;> rfl

end Sys2Proof.Machine
end

