-- ==== Sys2Proof/Laws/Words.lean ====
section
/-! SUPPORT. Words as numbers: appending a byte, packing a frame, putting `op_sel` on top. -/

namespace Sys2Proof

theorem append_byte_toNat {w : Nat} (x : BitVec w) (b : Byte) : (x ++ b).toNat = x.toNat * 256 + b.toNat := by
  rw [BitVec.toNat_append, ← Nat.shiftLeft_add_eq_or_of_lt b.isLt, Nat.shiftLeft_eq]

/-- The word of a frame, byte after byte. -/
theorem packFrame_toNat (a : Frame) :
    (packFrame a).toNat =
      ((((((a.a0.toNat * 256 + a.a1.toNat) * 256 + a.a2.toNat) * 256 + a.a3.toNat) * 256 + a.a4.toNat) * 256 +
        a.a5.toNat) * 256 + a.a6.toNat) * 256 + a.a7.toNat := by
  rw [packFrame, append_byte_toNat, append_byte_toNat, append_byte_toNat, append_byte_toNat, append_byte_toNat,
    append_byte_toNat, append_byte_toNat]

/-- The request word: `op_sel` counts 2^64. -/
theorem encodeRequest_toNat (r : Request) :
    (encodeRequest r).toNat = r.op.select.toNat * 2 ^ 64 + (packFrame r.operand).toNat := by
  rw [encodeRequest, BitVec.toNat_append, ← Nat.shiftLeft_add_eq_or_of_lt (packFrame r.operand).isLt,
    Nat.shiftLeft_eq]

end Sys2Proof
end

