-- ==== Sys2Proof/Tests/Slice0.lean ====
section
/-! SUPPORT. Small tests, with results taken from spec/95_test_vectors.md or from the rule named, and one witness for
the hypotheses of every statement that has some. -/

open Sys2Proof Sys2Proof.Machine

namespace Sys2Proof.Tests

/-! ## Frames and states of the tests -/

/-- V-20: a CO2 frame of 750 ppm and its raw frame. -/
def co2Frame : Frame := ⟨0x50, 0x02, 0xEE, 0x40, 0x0D, 0x00, 0x00, 0x00⟩
def co2Raw : Frame := ⟨0xE0, 0xE4, 0x66, 0x20, 0x8C, 0x46, 0xBF, 0x22⟩

/-- V-21: a temperature frame of value 4383. -/
def tempFrame : Frame := ⟨0x42, 0x11, 0x1F, 0x72, 0x0D, 0x00, 0x00, 0x00⟩

/-- V-22: a valid frame with an unlisted op byte. -/
def unlistedFrame : Frame := ⟨0x99, 0x00, 0x01, 0x9A, 0x0D, 0x00, 0x00, 0x00⟩

/-- V-23: the raw frame of V-20 with one bit flipped. -/
def brokenRaw : Frame := ⟨0xE0, 0xE4, 0x66, 0x20, 0x8C, 0x46, 0xBF, 0x2A⟩

def co2Body : FrameBody := ⟨0x02, 0xEE, 0x40, 0x00, 0x00, 0x00⟩
def tempBody : FrameBody := ⟨0x11, 0x1F, 0x72, 0x00, 0x00, 0x00⟩

/-- A host that polls, after the first actions of a transfer. -/
def pollingHost (inputs : List Input) : State :=
  { State.reset with
    phase := .polling
    polling := true
    session := some ⟨Config.defaultIds, 0, 0⟩
    inputs := inputs
    actions := [.initialTransfer 8, .startPolling 8 64] }

/-- A host with a session and no transfer. -/
def sessionHost (inputs : List Input) : State :=
  { State.reset with session := some ⟨Config.defaultIds, 0, 0⟩, inputs := inputs }

/-! ## Well-formedness: the check refuses a wrong checksum -/

theorem test_wellFormed_refuses_wrong_temp_checksum :
    (Instr.frameTemp ⟨0x11, 0x1F, 0x73, 0, 0, 0⟩).wellFormed = false := by decide
theorem test_wellFormed_refuses_wrong_co2_checksum :
    (Instr.frameCo2 ⟨0x02, 0xEE, 0x41, 0, 0, 0⟩).wellFormed = false := by decide
theorem test_wellFormed_accepts : (Instr.frameTemp tempBody).wellFormed = true ∧
    (Instr.frameCo2 co2Body).wellFormed = true := by decide

/-! ## Decoding: one written-out word per row (95_test_vectors.md section 6), and the rejections by name -/

theorem test_decode_decrypt :
    decode (.command 0b0_11100000_11100100_01100110_00100000_10001100_01000110_10111111_00100010#65) =
      .ok (.decrypt co2Raw) := by rfl
theorem test_decode_validate :
    decode (.command 0b1_01010000_00000010_11101110_01000000_00001101_00000000_00000000_00000000#65) =
      .ok (.validate co2Frame) := by rfl
theorem test_decode_frameTemp :
    decode (.dframe 0b01000010_00010001_00011111_01110010_00001101_00000000_00000000_00000000#64) =
      .ok (.frameTemp tempBody) := by rfl
theorem test_decode_frameCo2 :
    decode (.dframe 0b01010000_00000010_11101110_01000000_00001101_10101010_10111011_11001100#64) =
      .ok (.frameCo2 ⟨0x02, 0xEE, 0x40, 0xAA, 0xBB, 0xCC⟩) := by rfl
theorem test_decode_unlisted : decode (.dframe 0x9900019A0D000000) = .error (.unlistedOp 0x99) := by rfl
theorem test_decode_no_terminator : decode (.dframe 0x5002EE400A000000) = .error (.noTerminator 0x0A) := by rfl
theorem test_decode_seven_bytes : decodeBytes [1, 2, 3, 4, 5, 6, 7] = .error (.wrongLength 7) := by rfl
theorem test_decode_wide_select : decodeBytes [2, 0, 0, 0, 0, 0, 0, 0, 0] = .error (.selectTooWide 2) := by rfl

/-! ## The stages (V-2, V-3, V-4) and the operations (V-8, V-9, V-12, V-15b, V-18) -/

theorem test_stage1_counts : stage1 Config.KEY ⟨0, 1, 2, 3, 4, 5, 6, 7⟩ =
    ⟨0xC6, 0xC2, 0xC0, 0x95, 0x41, 0x25, 0xD9, 0x95⟩ := by decide
theorem test_stage2_general : stage2 ⟨0x01, 0x23, 0x45, 0x67, 0x89, 0xAB, 0xCD, 0xEF⟩ =
    ⟨0xE0, 0x24, 0x68, 0xAC, 0xF1, 0x35, 0x79, 0xBD⟩ := by decide
theorem test_stage3_wraps_by_lane : stage3 ⟨0x12, 0x12, 0x12, 0x12, 0x12, 0x12, 0x12, 0x12⟩ =
    ⟨0x8E, 0xCB, 0xBC, 0x3C, 0x0B, 0x7F, 0x7F, 0xBC⟩ := by decide
theorem test_decrypt_general :
    decrypt Config.KEY ⟨0x01, 0x23, 0x45, 0x67, 0x89, 0xAB, 0xCD, 0xEF⟩ =
      ⟨0xAC, 0xE2, 0xA2, 0x59, 0xA5, 0xEA, 0x3B, 0xA8⟩ := by decide
theorem test_decrypt_of_the_key :
    decrypt Config.KEY Config.KEY = ⟨0xFC, 0x49, 0x6A, 0xAA, 0x89, 0x4C, 0x6C, 0x8A⟩ := by decide
theorem test_encrypt_with_a_tail :
    encrypt Config.KEY ⟨0x50, 0x02, 0xEE, 0x40, 0x0D, 0xAA, 0xBB, 0xCC⟩ =
      ⟨0xE0, 0xE1, 0x66, 0x80, 0x8C, 0xAD, 0xC9, 0x22⟩ := by decide
theorem test_validate_three_addends : validate ⟨0x80, 0x40, 0x40, 0x55, 0x0D, 0, 0, 0⟩ = false ∧
    validate ⟨0xFF, 0xFF, 0xFF, 0xFD, 0x0D, 0, 0, 0⟩ = true := by decide
theorem test_validate_terminator_is_byte_four : validate ⟨0x42, 0x11, 0x1F, 0x72, 0, 0, 0, 0x0D⟩ = false := by decide

/-! ## One step each, from reset -/

theorem test_step_decrypt : (nextState (step (State.reset.withFetchWord 72 0x0E0E466208C46BF22))).map State.received =
    some (some (.frame co2Frame)) := by decide
theorem test_step_validate : (nextState (step (State.reset.withFetchWord 72 0x15002EE410D000000))).map State.received =
    some (some (.verdict false)) := by decide
theorem test_step_frameTemp : (nextState (step (State.reset.withFetchWord 64 0x42111F720D000000))).map State.reading =
    some ⟨none, some 79⟩ := by decide
theorem test_step_frameCo2 : (nextState (step (State.reset.withFetchWord 64 0x5002EE400D000000))).map State.reading =
    some ⟨some 750, none⟩ := by decide
theorem test_step_frame_with_wrong_checksum :
    (nextState (step (State.reset.withFetchWord 64 0x420000000D000000))).map (fun t => (t.reading, t.actions)) =
      some (⟨none, none⟩, [.stopPolling, .report (.rejected .checksumError)]) := by decide

/-! ## Text (30_encoding.md R39) -/

theorem test_read_line_with_comment :
    readLine "VALIDATE 50 02 EE 40 0D 00 00 00 -> valid=1 ; V-10".toList = some (.validate co2Frame) := by decide
theorem test_spelling : spelling (encodeRequest ⟨.decrypt, co2Raw⟩) = "0:E0E466208C46BF22".toList := by decide
theorem test_dollar_needs_a_decrypt_before : assemble none [.validate co2Frame, .validateLast] = none := by decide

/-! ## Witnesses: for every statement with hypotheses, a concrete case that meets them together, clause by clause -/

theorem witness_StageTwoTakesThreeBitsFromThePredecessor :
    ((7 : Fin 8).val = ((0 : Fin 8).val + 7) % 8) ∧ ((0 : Fin 8).val = ((1 : Fin 8).val + 7) % 8) := by decide

theorem witness_RawByteReachesExactlyTwoDecodedBytes :
    (∃ j : Fin 8, j ≠ Config.SHUF.get 0 ∧ j ≠ nextIndex (Config.SHUF.get 0)) ∧
    (0xFF : Byte) >>> 3 ≠ (co2Raw.get 0) >>> 3 ∧ (0xFF : Byte) &&& 7 ≠ (co2Raw.get 0) &&& 7 := by decide

theorem witness_VerdictNeedsTerminatorAndChecksum :
    validate ⟨0, 0, 0, 0, 0, 0, 0, 0⟩ = false ∧ validate ⟨0, 0, 0, 1, 0x0D, 0, 0, 0⟩ = false := by decide

theorem witness_VerdictIgnoresTheLastThreeBytes :
    ∀ i : Fin 8, i.val ≤ 4 → co2Frame.get i = (co2Frame.set 7 0xCC).get i := by decide

theorem witness_EverySingleByteChangeOfAValidFrameIsDetected :
    validate co2Frame = true ∧ (∀ i : Fin 8, i.val ≤ 4 → (0xFF : Byte) ≠ co2Frame.get i) := by decide

theorem witness_CoreAnswerDependsOnTheRequestAlone :
    ∃ (s s' : State) (w : BitVec 65), s ≠ s' ∧
      s.resetPending = false ∧ s'.resetPending = false ∧ s.port = some w ∧ s'.port = some w :=
  ⟨{ State.reset with port := some 0 }, { pollingHost [] with port := some 0 }, 0, by decide, rfl, rfl, rfl, rfl⟩

theorem witness_ProcessIsDecryptThenValidate :
    ∃ s : State, s.Quiescent ∧ s.phase = .idle ∧ s.inputs = programInputs (processRequests co2Raw) ++ [] :=
  ⟨{ State.reset with inputs := programInputs (processRequests co2Raw) ++ [] }, ⟨rfl, rfl, rfl⟩, rfl, rfl⟩

theorem witness_RunOfRequestsLeavesItsResponsesInOrder :
    ∃ s : State, s.Quiescent ∧ s.phase = .idle ∧
      s.inputs = programInputs [⟨.validate, co2Frame⟩, ⟨.decrypt, co2Raw⟩] ++ [.transportError] :=
  ⟨{ State.reset with
      inputs := programInputs [⟨.validate, co2Frame⟩, ⟨.decrypt, co2Raw⟩] ++ [.transportError] },
    ⟨rfl, rfl, rfl⟩, rfl, rfl⟩

theorem witness_EncodeOfDecodeIsTheWord :
    decode (.command 1) = .ok (.decrypt ⟨0, 0, 0, 0, 0, 0, 0, 1⟩) ∧
    decode (.dframe 0x42111F720D000000) = .ok (.frameTemp tempBody) := ⟨by rfl, by rfl⟩

theorem witness_DecoderFollowsTheOpcodeTable :
    Row.frameCo2 ∈ opcodeTable ∧ Row.frameCo2.covers (.dframe 0x5002EE400D000000) = true ∧
    Row.validate ∈ opcodeTable ∧ Row.validate.covers (.command 0x1FFFFFFFFFFFFFFFF) = true := by decide

theorem witness_StepRunsTheDecodedInstruction :
    (∃ (s : State) (w : BitVec 65), s.resetPending = false ∧ s.port = some w ∧
      decode (.command w) = .ok (.decrypt ⟨0, 0, 0, 0, 0, 0, 0, 1⟩)) ∧
    ∃ (s : State) (w : BitVec 64), s.resetPending = false ∧ s.port = none ∧ s.inbox = some w ∧
      decode (.dframe w) = .ok (.frameTemp tempBody) :=
  ⟨⟨{ State.reset with port := some 1 }, 1, rfl, rfl, by rfl⟩,
    ⟨{ State.reset with inbox := some 0x42111F720D000000 }, 0x42111F720D000000, rfl, rfl, rfl, by rfl⟩⟩

theorem witness_PlacedTableWordIsRunNext :
    decodeTableWord 72 0x15002EE400D000000 = some (.validate co2Frame) ∧
    decodeTableWord 64 0x5002EE400D000000 = some (.frameCo2 co2Body) := by decide

theorem witness_InstructionsLeaveTheRestUnchanged :
    (∃ t, exec (.decrypt co2Raw) State.reset = .next t) ∧ (∃ t, exec (.validate co2Frame) State.reset = .next t) ∧
    (∃ t, exec (.frameTemp tempBody) State.reset = .next t) ∧ ∃ t, exec (.frameCo2 co2Body) State.reset = .next t :=
  ⟨⟨_, rfl⟩, ⟨_, rfl⟩, ⟨_, rfl⟩, ⟨_, rfl⟩⟩

theorem witness_TemperatureFrameSetsTheRoundedTemperature :
    (Instr.frameTemp tempBody).wellFormed = true ∧ State.reset.reading.complete = false := by decide

theorem witness_Co2FrameSetsTheConcentration :
    (Instr.frameCo2 ⟨0xFF, 0xFF, 0x4E, 0, 0, 0⟩).wellFormed = true ∧ State.reset.reading.complete = false := by decide

theorem witness_CompleteReadingAcceptsNoFurtherFrames :
    ({ State.reset with reading := ⟨some 750, some 79⟩ } : State).reading.complete = true ∧
    (Instr.frameTemp ⟨0, 0, 0x42, 0, 0, 0⟩).wellFormed = true ∧
    (Instr.frameCo2 ⟨0, 0, 0x50, 0, 0, 0⟩).wellFormed = true := by decide

theorem witness_InvalidFrameOfARowIsAChecksumError :
    (Instr.frameTemp ⟨0, 0, 0, 0, 0, 0⟩).wellFormed = false ∧
    (Instr.frameCo2 ⟨0, 0, 0, 0, 0, 0⟩).wellFormed = false := by decide

theorem witness_UnlistedOpCodeIsIgnored :
    validate unlistedFrame = true ∧ unlistedFrame.get 0 ≠ 0x42 ∧ unlistedFrame.get 0 ≠ 0x50 ∧
    ∃ s : State, s.resetPending = false ∧ s.port = none ∧ s.inbox = some (packFrame unlistedFrame) :=
  ⟨by decide, by decide, by decide, { State.reset with inbox := some (packFrame unlistedFrame) }, rfl, rfl, rfl⟩

theorem witness_ConsumerStepIsIngest :
    validate tempFrame = true ∧
    ∃ s : State, s.resetPending = false ∧ s.port = none ∧ s.inbox = some (packFrame tempFrame) :=
  ⟨by decide, { State.reset with inbox := some (packFrame tempFrame) }, rfl, rfl, rfl⟩

theorem witness_OrderOfTheTwoOpCodesDoesNotMatter : tempFrame.get 0 = 0x42 ∧ co2Frame.get 0 = 0x50 := by decide

theorem witness_OperandThatIsNotEightBytesIsRefused :
    ([1, 2, 3, 4, 5, 6, 7] : List Byte).length ≠ 8 ∧
    (pollingHost [.frame [1, 2, 3, 4, 5, 6, 7]]).Quiescent ∧
    (pollingHost [.frame [1, 2, 3, 4, 5, 6, 7]]).phase = .polling :=
  ⟨by decide, ⟨rfl, rfl, rfl⟩, rfl⟩

theorem witness_OverlappingRequestIsRefused :
    State.reset.port = none ∧ ({ State.reset with port := some 0 } : State).port.isSome = true := ⟨rfl, rfl⟩

theorem witness_ResetAbandonsTheOperationInProgress :
    ({ State.reset with resetPending := true, port := some 0 } : State).resetPending = true := rfl

theorem witness_HostRepeatsAnAbandonedRequest :
    ∃ s s' : State, s.Quiescent ∧ s.received = none ∧ s.phase = .awaitDecrypt co2Raw ∧
      s'.Quiescent ∧ s'.received = none ∧ s'.phase = .awaitVerdict co2Frame :=
  ⟨{ pollingHost [] with phase := .awaitDecrypt co2Raw }, { pollingHost [] with phase := .awaitVerdict co2Frame },
    ⟨rfl, rfl, rfl⟩, rfl, rfl, ⟨rfl, rfl, rfl⟩, rfl, rfl⟩

theorem witness_WaitingMachineStaysAsItIs :
    (pollingHost []).Quiescent ∧ (pollingHost []).phase = .polling ∧ (pollingHost []).inputs = [] ∧
    (sessionHost []).Quiescent ∧ (sessionHost []).phase = .idle :=
  ⟨⟨rfl, rfl, rfl⟩, rfl, rfl, ⟨rfl, rfl, rfl⟩, rfl⟩

theorem witness_TransferStartsFromAnEmptyReading :
    ∃ s s' s'' : State, (s.Quiescent ∧ s.inputs = [.call .transfer] ∧ s.phase = .idle ∧ s.session.isSome = true) ∧
      (s'.Quiescent ∧ s'.inputs = [.call .transfer] ∧ s'.phase = .idle ∧ s'.session = none) ∧
      s''.Quiescent ∧ s''.inputs = [.call .transfer] ∧ s''.phase = .polling :=
  ⟨sessionHost [.call .transfer], { State.reset with inputs := [.call .transfer] }, pollingHost [.call .transfer],
    ⟨⟨rfl, rfl, rfl⟩, rfl, rfl, rfl⟩, ⟨⟨rfl, rfl, rfl⟩, rfl, rfl, rfl⟩, ⟨rfl, rfl, rfl⟩, rfl, rfl⟩

theorem witness_ConnectFailsWhereTheTransportFails :
    ∀ a : ConnectAnswers, ∃ s : State, s.Quiescent ∧ s.phase = .idle ∧ s.session = none ∧
      s.inputs = [.call (.connect none a)] :=
  fun a => ⟨{ State.reset with inputs := [.call (.connect none a)] }, ⟨rfl, rfl, rfl⟩, rfl, rfl, rfl⟩

theorem witness_DisconnectAttemptsBothSteps :
    ∃ s : State, s.Quiescent ∧ s.phase = .idle ∧ s.session.isSome = true ∧
      s.inputs = [.call (.disconnect false true)] :=
  ⟨sessionHost [.call (.disconnect false true)], ⟨rfl, rfl, rfl⟩, rfl, rfl, rfl⟩

theorem witness_VerdictZeroEndsTheTransferWithChecksumError :
    ∃ s : State, s.Quiescent ∧ s.phase = .awaitVerdict co2Frame ∧ s.received = some (.verdict false) :=
  ⟨{ pollingHost [] with phase := .awaitVerdict co2Frame, received := some (.verdict false) },
    ⟨rfl, rfl, rfl⟩, rfl, rfl⟩

theorem witness_TransportErrorEndsTheTransfer :
    (pollingHost [.transportError]).Quiescent ∧ (pollingHost [.transportError]).phase = .polling ∧
    (pollingHost [.transportError]).inputs = .transportError :: [] :=
  ⟨⟨rfl, rfl, rfl⟩, rfl, rfl⟩

theorem witness_DeliveriesOutsideATransferAreDropped :
    ∀ input : Input, (∃ bytes, input = .frame bytes ∨ input = .initialData bytes ∨ input = .transportError) →
      ∃ s : State, s.Quiescent ∧ s.phase = .idle ∧ s.inputs = [input] :=
  fun input _ => ⟨sessionHost [input], ⟨rfl, rfl, rfl⟩, rfl, rfl⟩

theorem witness_InitialDataIsHandledAsAFrameOrDropped :
    (pollingHost [.initialData co2Raw.toList]).Quiescent ∧
    (pollingHost [.initialData co2Raw.toList]).inputs = .initialData co2Raw.toList :: [] :=
  ⟨⟨rfl, rfl, rfl⟩, rfl⟩

/-- Each outcome of a frame occurs: it completes the Reading, does not, or fails. -/
theorem witness_HandlingAFrameComesToOnFrame :
    (∀ raw : Frame, (pollingHost [.frame raw.toList]).Quiescent ∧
      (pollingHost [.frame raw.toList]).inputs = .frame raw.toList :: []) ∧
    onFrame ⟨none, some 79⟩ co2Raw = .complete ⟨some 750, some 79⟩ ∧
    onFrame Reading.empty co2Raw = .goOn ⟨some 750, none⟩ ∧
    onFrame Reading.empty brokenRaw = .failed .checksumError :=
  ⟨fun _ => ⟨⟨rfl, rfl, rfl⟩, rfl⟩, by decide, by decide, by decide⟩

theorem witness_OnFrameFollowsTheVerdictAndTheReading :
    validate (decrypt Config.KEY brokenRaw) = false ∧ validate (decrypt Config.KEY co2Raw) = true ∧
    (ingest ⟨none, some 79⟩ (decrypt Config.KEY co2Raw)).complete = true ∧
    (ingest Reading.empty (decrypt Config.KEY co2Raw)).complete = false := by decide

/-- A polling host with a raw frame to handle meets the invariant. -/
theorem pollingHost_inv : (pollingHost [.frame co2Raw.toList]).Inv := by
  refine ⟨by decide, rfl, QuietReports.of_none_ends (by decide), by decide, rfl, by decide, ?_, ?_, ?_⟩
  · intro t ht
    cases ht
  · intro raw h
    cases h
  · intro d h
    cases h

theorem witness_EveryStepKeepsTheInvariant :
    ∃ s t : State, s.Inv ∧ step s = .next t ∧ t.phase = .awaitDecrypt co2Raw :=
  ⟨_, _, pollingHost_inv, rfl, rfl⟩

theorem witness_LegalInputsAreNeverRefused :
    ∃ s : State, s.Inv ∧ s.inputs = [.frame co2Raw.toList] ∧
      ∀ input rest, s.inputs = input :: rest → input.Legal s :=
  ⟨_, pollingHost_inv, rfl, by
    intro input rest h
    cases h
    rfl⟩

end Sys2Proof.Tests
end

section
/-! PROOF. The core's step on a request at its port (R2, R14, R25). -/

namespace Sys2Proof.Machine

/-- The step takes the request from the port and answers it (R15, R25): the response is a function of the word. -/
theorem step_request {s : State} {w : BitVec 65} (hreset : s.resetPending = false) (hport : s.port = some w) :
    step s = .next (State.respond (decodeRequest w) (answer (decodeRequest w)) { s with port := none }) := by
  rw [step, fetch_request hreset hport]
  exact exec_toInstr (decodeRequest w) { s with port := none }

/-- Settles O16: the response both states record is `answer` of the decoded word, which names no state. -/
theorem coreAnswerDependsOnTheRequestAlone : Obligations.CoreAnswerDependsOnTheRequestAlone := by
  intro s s' w hreset hreset' hport hport'
  exact ⟨answer (decodeRequest w), step_request hreset hport, step_request hreset' hport'⟩

end Sys2Proof.Machine
end

section
/-! PROOF. A frame and a request come back out of their words (R28, R32). -/

namespace Sys2Proof

/-- Byte `i` of the word of a frame is the frame's byte `i` (R28). -/
theorem extractLsb'_packFrame (a : Frame) (i : Fin 8) :
    (packFrame a).extractLsb' (56 - 8 * i.val) 8 = a.get i := by
  have h0 := a.a0.isLt
  have h1 := a.a1.isLt
  have h2 := a.a2.isLt
  have h3 := a.a3.isLt
  have h4 := a.a4.isLt
  have h5 := a.a5.isLt
  have h6 := a.a6.isLt
  have h7 := a.a7.isLt
  apply BitVec.eq_of_toNat_eq
  rw [BitVec.extractLsb'_toNat, packFrame_toNat, Nat.shiftRight_eq_div_pow]
  fin_cases i <;> simp only [Array8.get] <;> omega

@[simp] theorem unpackFrame_packFrame (a : Frame) : unpackFrame (packFrame a) = a := by
  simp [unpackFrame, extractLsb'_packFrame]

/-- `op_sel` is 1 exactly for `VALIDATE` (R32). -/
theorem encodeRequest_select (r : Request) : (encodeRequest r).getLsbD 64 = decide (r.op = .validate) := by
  rw [encodeRequest, BitVec.getLsbD_append, if_neg (Nat.lt_irrefl 64)]
  cases r.op <;> rfl

/-- `din` is the word of the operand (R32). -/
theorem encodeRequest_din (r : Request) : (encodeRequest r).extractLsb' 0 64 = packFrame r.operand := by
  have hword := encodeRequest_toNat r
  have hdin := (packFrame r.operand).isLt
  apply BitVec.eq_of_toNat_eq
  rw [BitVec.extractLsb'_toNat, Nat.shiftRight_zero]
  omega

@[simp] theorem decodeRequest_encodeRequest (r : Request) : decodeRequest (encodeRequest r) = r := by
  obtain ⟨op, operand⟩ := r
  rw [decodeRequest, encodeRequest_select, encodeRequest_din, unpackFrame_packFrame]
  cases op <;> rfl

end Sys2Proof
end

section
/-! PROOF. The hard-wired tables (10_state.md R7 to R10). -/

namespace Sys2Proof.Machine

/-- The nibble swap on numbers: the high half goes down, the low half goes up (R10). -/
theorem nibbleSwap_toNat (v : Byte) : (nibbleSwap v).toNat = v.toNat / 16 + 16 * (v.toNat % 16) := by
  have hhalf : v.toNat >>> 4 < 2 ^ 4 := by rw [Nat.shiftRight_eq_div_pow]; omega
  rw [nibbleSwap, masked_toNat, Nat.or_comm, ← Nat.shiftLeft_add_eq_or_of_lt hhalf, Nat.shiftLeft_eq,
    Nat.shiftRight_eq_div_pow]
  omega

@[simp] theorem ctmp_get (i : Fin 8) : ctmp.get i = nibbleSwap (Config.CSTATE.get i) :=
  Array8.get_ofFn _ i

/-- R9: the shuffle read twice gives the index back. -/
theorem shuf_involutive : Function.Involutive Config.SHUF.get := by
  unfold Function.Involutive
  decide

/-- Settles O1: the bytes are those of the definitions, and the nibble swap holds for every byte. -/
theorem hardwiredTablesHoldTheirBytes : Obligations.HardwiredTablesHoldTheirBytes := by
  refine ⟨rfl, rfl, rfl, by decide, fun i => ?_⟩
  rw [ctmp_get, nibbleSwap_toNat]

/-- Settles O2: an involution is a bijection. -/
theorem shuffleIsAPermutationAndItsOwnInverse : Obligations.ShuffleIsAPermutationAndItsOwnInverse :=
  ⟨shuf_involutive.bijective, shuf_involutive⟩

end Sys2Proof.Machine
end

section
/-! PROOF. A step runs the decoded instruction (R15, R25), and a request is answered right after reset (R18, R83). -/

namespace Sys2Proof.Machine

/-- With no reset waiting and the core idle, the row's frame before the consumer is run as its instruction. -/
theorem step_row {s : State} {w : BitVec 64} {i : Instr} (hreset : s.resetPending = false) (hport : s.port = none)
    (hinbox : s.inbox = some w) (hrow : decodeDframe w = .ok i) : step s = exec i { s with inbox := none } := by
  rw [step, fetch_row hreset hport hinbox hrow]

/-- Settles O27: a request word always decodes, so the first clause's instruction is the one the port gives. -/
theorem stepRunsTheDecodedInstruction : Obligations.StepRunsTheDecodedInstruction := by
  refine ⟨fun s w i hreset hport hdecode => ?_, fun s w i hreset hport hinbox hdecode => ?_⟩
  · obtain rfl : (decodeRequest w).toInstr = i := Except.ok.inj hdecode
    rw [step, fetch_request hreset hport]
  · exact step_row hreset hport hinbox hdecode

/-- An idle core takes a request and answers it in the next step, whatever the host and the consumer hold. -/
theorem present_then_step {s : State} (hreset : s.resetPending = false) (hport : s.port = none) (r : Request) :
    ∃ t, s.present (encodeRequest r) = .next t ∧
      step t = .next { s with
        port := none
        transactions := s.transactions ++ [⟨r, answer r⟩]
        received := some (answer r) } := by
  refine ⟨_, (present_next_iff _ _ _).2 ⟨hport, rfl⟩, ?_⟩
  refine (step_request (w := encodeRequest r) ?_ rfl).trans ?_
  · exact hreset
  · rw [decodeRequest_encodeRequest]
    rfl

/-- Settles O42: the reset machine's core is idle and no reset waits. -/
theorem resetMachineAcceptsARequestAtOnce : Obligations.ResetMachineAcceptsARequestAtOnce := by
  refine ⟨rfl, rfl, fun r => ?_⟩
  obtain ⟨s, hpresent, hstep⟩ := present_then_step (s := State.reset) rfl rfl r
  exact ⟨s, _, hpresent, hstep, rfl, rfl⟩

end Sys2Proof.Machine
end

section
/-! PROOF. What the instructions leave unchanged (R14, R16, R17, R53, R66). -/

namespace Sys2Proof.Machine

/-- A temperature frame leaves the concentration alone (R61). -/
@[simp] theorem Reading.ingestTemp_co2 (v : BitVec 16) (r : Reading) : (r.ingestTemp v).co2 = r.co2 := by
  unfold Reading.ingestTemp
  split <;> rfl

/-- A CO2 frame leaves the temperature alone (R62). -/
@[simp] theorem Reading.ingestCo2_temperatureC (v : BitVec 16) (r : Reading) :
    (r.ingestCo2 v).temperatureC = r.temperatureC := by
  unfold Reading.ingestCo2
  split <;> rfl

section Consume

variable (d : Frame) (effect : Reading → Reading) (s : State)

/-- A frame at the consumer has its effect on the Reading, or is the host's `ChecksumError`. -/
theorem consume_cases :
    consume d effect s = { s with reading := effect s.reading } ∨ consume d effect s = s.failTransfer .checksumError := by
  cases h : validate d with
  | true => exact .inl (consume_valid h effect s)
  | false => exact .inr (consume_invalid h effect s)

/-- The consumer touches neither the core nor the session, nor what waits for the host; and of the Reading it keeps
every part that the frame's effect keeps, also when the frame is not valid. -/
theorem consume_frame {α : Type} (part : Reading → α) (kept : ∀ r, part (effect r) = part r) :
    (consume d effect s).resetPending = s.resetPending ∧ (consume d effect s).port = s.port ∧
    (consume d effect s).inbox = s.inbox ∧ (consume d effect s).session = s.session ∧
    (consume d effect s).inputs = s.inputs ∧ (consume d effect s).received = s.received ∧
    (consume d effect s).transactions = s.transactions ∧
    part (consume d effect s).reading = part s.reading := by
  rcases consume_cases d effect s with h | h <;> simp [h, kept]

end Consume

/-- Settles O29: the core's instructions are `respond`, the context rows are `consume`. -/
theorem instructionsLeaveTheRestUnchanged : Obligations.InstructionsLeaveTheRestUnchanged := by
  intro i s t h
  cases i with
  | decrypt frame =>
    obtain rfl : s.respond _ _ = t := Host.Outcome.next.inj h
    simp
  | validate decoded =>
    obtain rfl : s.respond _ _ = t := Host.Outcome.next.inj h
    simp
  | frameTemp body =>
    obtain rfl : consume _ _ s = t := Host.Outcome.next.inj h
    exact consume_frame _ _ s Reading.co2 (Reading.ingestTemp_co2 _)
  | frameCo2 body =>
    obtain rfl : consume _ _ s = t := Host.Outcome.next.inj h
    exact consume_frame _ _ s Reading.temperatureC (Reading.ingestCo2_temperatureC _)

end Sys2Proof.Machine
end

section
/-! PROOF. The reset machine meets the invariant (R18, R71, R92). -/

namespace Sys2Proof.Machine

/-- Settles O56: the host is idle and both records are empty, so each clause is about nothing or about no polling. -/
theorem resetMachineMeetsTheInvariant : Obligations.ResetMachineMeetsTheInvariant where
  polls := by decide
  recorded := pollingAfter_nil
  quiet := QuietReports.of_none_ends (List.forall_mem_nil _)
  whole := List.forall_mem_nil _
  once := rfl
  held := fun h => absurd rfl h
  answered := List.forall_mem_nil _
  decrypting := fun _ h => nomatch h
  validating := fun _ h => nomatch h

end Sys2Proof.Machine
end

section
/-! PROOF. Packing is `BE64`, and it is inverse to unpacking (R28). -/

namespace Sys2Proof

/-- Bits of a word followed by its next lower byte are one longer range of its bits (R28). -/
theorem extractLsb'_append_nextByte (w : BitVec 64) (low width : Nat) :
    w.extractLsb' (low + 8) width ++ w.extractLsb' low 8 = w.extractLsb' low (width + 8) :=
  BitVec.extractLsb'_append_extractLsb'_eq_extractLsb' rfl

/-- Byte after byte, the bit ranges grow to the whole word (R28). -/
@[simp] theorem packFrame_unpackFrame (w : BitVec 64) : packFrame (unpackFrame w) = w :=
  calc packFrame (unpackFrame w)
    _ = w.extractLsb' 56 8 ++ w.extractLsb' 48 8 ++ w.extractLsb' 40 8 ++ w.extractLsb' 32 8 ++ w.extractLsb' 24 8 ++
          w.extractLsb' 16 8 ++ w.extractLsb' 8 8 ++ w.extractLsb' 0 8 := rfl
    _ = w.extractLsb' 0 64 := by
      rw [extractLsb'_append_nextByte w 48, extractLsb'_append_nextByte w 40, extractLsb'_append_nextByte w 32,
        extractLsb'_append_nextByte w 24, extractLsb'_append_nextByte w 16, extractLsb'_append_nextByte w 8,
        extractLsb'_append_nextByte w 0]
    _ = w := BitVec.extractLsb'_eq_self

/-- Settles O24: the bit ranges and one inverse are proved above, `BE64` is Horner's form multiplied out. -/
theorem packingPutsByteZeroOnTop : Obligations.PackingPutsByteZeroOnTop := by
  refine ⟨extractLsb'_packFrame, fun a => ?_, unpackFrame_packFrame, packFrame_unpackFrame⟩
  rw [packFrame_toNat]
  omega

end Sys2Proof
end

section
/-! PROOF. The boundary: a delivery is eight bytes (R21, R24), and one operation is in progress at a time (R26). -/

namespace Sys2Proof.Machine

/-- A delivery of any other length than eight is no operand (R24). -/
theorem frameOfBytes_of_length_ne {bytes : List Byte} (h : bytes.length ≠ 8) :
    frameOfBytes bytes = .error (.operandLength bytes.length) := by
  unfold frameOfBytes
  split
  · exact absurd rfl h
  · rfl

/-- With the core, the consumer and reset quiet, a polling host takes the oldest input. -/
theorem step_polling {s : State} {input : Input} {rest : List Input} (hquiet : s.Quiescent)
    (hphase : s.phase = .polling) (hinputs : s.inputs = input :: rest) :
    step s = takeInput input { s with inputs := rest } := by
  rw [step_quiescent hquiet]
  simp only [hostStep, takeNextInput, hphase, hinputs]

/-- A polling host refuses a raw frame for the reason its bytes are no operand (R24). -/
theorem takeInput_frame_error {s : State} {bytes : List Byte} {e : Refusal} (hphase : s.phase = .polling)
    (herror : frameOfBytes bytes = .error e) : takeInput (.frame bytes) s = .refused e := by
  simp only [takeInput, acceptRaw, hphase, herror, if_true]

/-- Settles O39: the bytes in index order are the frame's list, and the host's step reads them by `frameOfBytes`. -/
theorem operandThatIsNotEightBytesIsRefused : Obligations.OperandThatIsNotEightBytesIsRefused := by
  refine ⟨frameOfBytes_toList, fun _ => frameOfBytes_of_length_ne, ?_⟩
  intro s bytes rest hquiet hphase hinputs hlength
  rw [step_polling hquiet hphase hinputs]
  exact takeInput_frame_error hphase (frameOfBytes_of_length_ne hlength)

/-- A busy core refuses a second request (R26). -/
theorem present_busy {s : State} (hport : s.port.isSome = true) (w : BitVec 65) :
    s.present w = .refused .overlappingRequest := by
  obtain ⟨current, hcurrent⟩ := Option.isSome_iff_exists.1 hport
  simp only [State.present, hcurrent]

/-- Settles O40: the port is free or it holds the operation in progress. -/
theorem overlappingRequestIsRefused : Obligations.OverlappingRequestIsRefused :=
  fun _ w => ⟨fun hfree => (present_next_iff w _ _).2 ⟨hfree, rfl⟩, fun hbusy => present_busy hbusy w⟩

end Sys2Proof.Machine
end

section
/-! PROOF. Decoder and encoder are inverse to each other (R31, R32, R38). -/

namespace Sys2Proof

/-- The core's instruction that a request is has the request's own word. -/
@[simp] theorem encode_toInstr (r : Request) : encode r.toInstr = .command (encodeRequest r) := by
  obtain ⟨op, operand⟩ := r
  cases op <;> rfl

/-- `op_sel` is bit 64 of the word, and each of its two values names its operation (R32, R38). -/
theorem decodeRequest_select (w : BitVec 65) : (decodeRequest w).op.select = w.extractLsb' 64 1 := by
  have hbit : ∀ bit : BitVec 1, (if bit == 1#1 then Op.validate else Op.decrypt).select = bit := by decide
  rw [decodeRequest, BitVec.getLsbD_eq_extractLsb']
  exact hbit _

/-- No bit of a request word is lost: `op_sel` is kept, and `din` below it (R32, R38). -/
@[simp] theorem encodeRequest_decodeRequest (w : BitVec 65) : encodeRequest (decodeRequest w) = w :=
  calc encodeRequest (decodeRequest w)
    _ = w.extractLsb' 64 1 ++ packFrame (unpackFrame (w.extractLsb' 0 64)) :=
      congrArg (· ++ packFrame (decodeRequest w).operand) (decodeRequest_select w)
    _ = w.extractLsb' 64 1 ++ w.extractLsb' 0 64 := by rw [packFrame_unpackFrame]
    _ = w.extractLsb' 0 65 := BitVec.extractLsb'_append_extractLsb'_eq_extractLsb' rfl
    _ = w := BitVec.extractLsb'_eq_self

/-- The two bytes that a row fixes (R31, R35). -/
@[simp] theorem FrameBody.toFrame_a0 (op : Byte) (b : FrameBody) : (b.toFrame op).a0 = op := rfl
@[simp] theorem FrameBody.toFrame_a4 (op : Byte) (b : FrameBody) : (b.toFrame op).a4 = Config.TERMINATOR := rfl

/-- What a context row does not fix of its frame comes back (R31). -/
@[simp] theorem FrameBody.ofFrame_toFrame (op : Byte) (b : FrameBody) : FrameBody.ofFrame (b.toFrame op) = b := rfl

/-- A frame with a row's op byte and the terminator is the frame of what the row does not fix (R31). -/
theorem FrameBody.toFrame_ofFrame {op : Byte} {f : Frame} (hop : f.a0 = op) (hend : f.a4 = Config.TERMINATOR) :
    (FrameBody.ofFrame f).toFrame op = f := by
  rw [← hop, FrameBody.toFrame, ← hend]
  rfl

/-- Settles O20: a request comes back out of its word, and a context row's frame has its row's op byte and the
terminator. -/
theorem decodeOfEncodeIsTheInstruction : Obligations.DecodeOfEncodeIsTheInstruction := by
  intro i
  cases i with
  | decrypt frame => simp [encode, decode, Request.toInstr]
  | validate decoded => simp [encode, decode, Request.toInstr]
  | frameTemp body => simp [encode, decode, decodeDframe]
  | frameCo2 body =>
    have hother : Config.OP_CO2 ≠ Config.OP_TEMP := by decide
    simp [encode, decode, decodeDframe, hother]

/-- A decoded frame that is a row is that row's frame: no byte of it is lost (R31, R41). -/
theorem encode_of_decodeDframe {w : BitVec 64} {i : Instr} (h : decodeDframe w = .ok i) : encode i = .dframe w := by
  simp only [decodeDframe] at h
  split at h
  next => cases h
  next hend =>
    have hend := not_not.1 hend
    split at h
    next htemp =>
      cases h
      rw [encode, FrameBody.toFrame_ofFrame htemp hend, packFrame_unpackFrame]
    next =>
      split at h
      next hco2 =>
        cases h
        rw [encode, FrameBody.toFrame_ofFrame hco2 hend, packFrame_unpackFrame]
      next => cases h

/-- Settles O21: a request word is the word of its request, a decoded frame that is a row the frame of its row. -/
theorem encodeOfDecodeIsTheWord : Obligations.EncodeOfDecodeIsTheWord := by
  intro w i h
  cases w with
  | command w =>
    obtain rfl : (decodeRequest w).toInstr = i := Except.ok.inj h
    rw [encode_toInstr, encodeRequest_decodeRequest]
  | dframe w => exact encode_of_decodeDframe h

end Sys2Proof
end

section
/-! PROOF. The decoder and the opcode table (30_encoding.md R41). -/

namespace Sys2Proof

/-- The words of every instruction lie in its row (R41). -/
theorem row_covers_encode (i : Instr) : i.row.covers (encode i) = true := by
  cases i with
  | decrypt frame => exact Laws.EncodedRow.decrypt frame
  | validate decoded => exact Laws.EncodedRow.validate decoded
  | frameTemp body => exact Laws.EncodedRow.frameTemp body
  | frameCo2 body => exact Laws.EncodedRow.frameCo2 body

/-- A row covers the words of its format whose masked bits are its pattern (R41). -/
theorem covers_iff (r : Row) (w : Wire) :
    r.covers w = true ↔ w.format = r.format ∧ w.toNat &&& r.mask = r.pattern := by
  simp [Row.covers]

/-- The table masks words as numbers; this is the same on the words (R41). -/
theorem masked_of_toNat {width M P : Nat} {x m p : BitVec width} (h : x.toNat &&& M = P) (hm : m.toNat = M)
    (hp : p.toNat = P) : x &&& m = p := by
  apply BitVec.eq_of_toNat_eq
  rw [BitVec.toNat_and, hm, hp, h]

/-- The two operations have different values of `op_sel` (R32). -/
theorem select_injective {a b : Op} (h : a.select = b.select) : a = b := by
  cases a <;> cases b <;> simp [Op.select] at h ⊢

section Covered

variable {r : Row} {w : Wire}

/-- A `CMD` row that masks `op_sel` alone covers only the words of its operation's requests (R32, R41). -/
theorem request_of_covers {op : Op} (hformat : r.format = .cmd)
    (hmask : (1#1 ++ 0#64 : BitVec 65).toNat = r.mask) (hpattern : (op.select ++ 0#64 : BitVec 65).toNat = r.pattern)
    (h : r.covers w = true) : ∃ operand, w = .command (encodeRequest ⟨op, operand⟩) := by
  obtain ⟨hwire, hbits⟩ := (covers_iff r w).1 h
  cases w with
  | dframe word => simp [Wire.format, hformat] at hwire
  | command word =>
    obtain ⟨q, rfl⟩ : ∃ q, encodeRequest q = word := ⟨_, encodeRequest_decodeRequest word⟩
    have hmasked := masked_of_toNat hbits hmask hpattern
    rw [encodeRequest, Laws.EncodedRow.select_masked] at hmasked
    have hselect := congrArg (BitVec.extractLsb' 64 1) hmasked
    rw [BitVec.extractLsb'_append_eq_left, BitVec.extractLsb'_append_eq_left] at hselect
    exact ⟨q.operand, by rw [← select_injective hselect]⟩

/-- A `DFRAME` row that masks bytes 0 and 4 covers only the frames of its op byte, with the terminator (R31, R41). -/
theorem frame_of_covers {op : Byte} (hformat : r.format = .dframe)
    (hmask : (packFrame ⟨0xFF, 0, 0, 0, 0xFF, 0, 0, 0⟩).toNat = r.mask)
    (hpattern : (packFrame ⟨op, 0, 0, 0, Config.TERMINATOR, 0, 0, 0⟩).toNat = r.pattern)
    (h : r.covers w = true) : ∃ b : FrameBody, w = .dframe (packFrame (b.toFrame op)) := by
  obtain ⟨hwire, hbits⟩ := (covers_iff r w).1 h
  cases w with
  | command word => simp [Wire.format, hformat] at hwire
  | dframe word =>
    obtain ⟨f, rfl⟩ : ∃ f, packFrame f = word := ⟨_, packFrame_unpackFrame word⟩
    have hmasked := masked_of_toNat hbits hmask hpattern
    rw [Laws.EncodedRow.dframe_masked] at hmasked
    have hframe := congrArg unpackFrame hmasked
    simp only [unpackFrame_packFrame, Array8.mk.injEq, true_and, and_true] at hframe
    obtain ⟨hop, hend⟩ := hframe
    exact ⟨.ofFrame f, by rw [FrameBody.toFrame_ofFrame hop hend]⟩

end Covered

/-- Every word that a row covers is the word of an instruction of the row (R41). -/
theorem encode_of_covers {r : Row} {w : Wire} (hrow : r ∈ opcodeTable) (h : r.covers w = true) :
    ∃ i : Instr, i.row = r ∧ encode i = w := by
  simp only [opcodeTable, List.mem_cons, List.not_mem_nil, or_false] at hrow
  rcases hrow with rfl | rfl | rfl | rfl
  · obtain ⟨frame, rfl⟩ := request_of_covers (op := .decrypt) rfl rfl rfl h
    exact ⟨.decrypt frame, rfl, rfl⟩
  · obtain ⟨decoded, rfl⟩ := request_of_covers (op := .validate) rfl rfl rfl h
    exact ⟨.validate decoded, rfl, rfl⟩
  · obtain ⟨body, rfl⟩ := frame_of_covers (op := Config.OP_TEMP) rfl rfl rfl h
    exact ⟨.frameTemp body, rfl, rfl⟩
  · obtain ⟨body, rfl⟩ := frame_of_covers (op := Config.OP_CO2) rfl rfl rfl h
    exact ⟨.frameCo2 body, rfl, rfl⟩

/-- Settles O22: a decoded word is the encoding of its instruction (O21) and so lies in its row; a covered word is the
encoding of an instruction of the row, which it decodes to (O20). -/
theorem decoderFollowsTheOpcodeTable : Obligations.DecoderFollowsTheOpcodeTable := by
  refine ⟨fun w i hdecode => ?_, fun w r hrow hcovers => ?_⟩
  · rw [← encodeOfDecodeIsTheWord w i hdecode]
    exact row_covers_encode i
  · obtain ⟨i, hi, rfl⟩ := encode_of_covers hrow hcovers
    exact ⟨i, decodeOfEncodeIsTheInstruction i, hi⟩

end Sys2Proof
end

section
/-! PROOF. Every request word is an operation (30_encoding.md R38), and what the words written out decode to (R41). -/

namespace Sys2Proof

/-- Byte `i` of a request's operand is its byte of the request word: `din` is the word's low end (R28, R32). -/
theorem decodeRequest_operand_get (w : BitVec 65) (i : Fin 8) :
    (decodeRequest w).operand.get i = w.extractLsb' (56 - 8 * i.val) 8 := by
  rw [decodeRequest, unpackFrame, Array8.get_ofFn, BitVec.extractLsb'_extractLsb'_of_le (by omega)]

/-- A request word decodes to the operation its bit 64 names (R32). -/
theorem decode_command (w : BitVec 65) :
    decode (.command w) = .ok (if w.getLsbD 64 then .validate (decodeRequest w).operand
      else .decrypt (decodeRequest w).operand) := by
  rw [decode, Request.toInstr, decodeRequest]
  cases w.getLsbD 64 <;> rfl

/-- Settles O23: the operand is the decoded request's. -/
theorem everyRequestWordIsAnOperation : Obligations.EveryRequestWordIsAnOperation :=
  fun w => ⟨(decodeRequest w).operand, decodeRequest_operand_get w, decode_command w⟩

/-- Settles O25: the decoder is evaluated on the five words. -/
theorem writtenOutWordsDecode : Obligations.WrittenOutWordsDecode := by
  unfold Obligations.WrittenOutWordsDecode
  decide

end Sys2Proof
end

section
/-! PROOF. PROCESS is DECRYPT then VALIDATE, as text (R39) and as a run (R40); what a response drives (R33). -/

namespace Sys2Proof.Machine

/-- Settles O18: `VALIDATE $` after `DECRYPT` takes the operand that `PROCESS` computes. -/
theorem processLineIsDecryptThenValidateLast : Obligations.ProcessLineIsDecryptThenValidateLast := by
  intro last raw rest
  simp only [assemble, Option.map_map]
  rfl

/-- With the core, the consumer and reset quiet, an idle host takes the oldest input. -/
theorem step_idle {s : State} {input : Input} {rest : List Input} (hquiet : s.Quiescent) (hphase : s.phase = .idle)
    (hinputs : s.inputs = input :: rest) : step s = takeInput input { s with inputs := rest } := by
  rw [step_quiescent hquiet]
  simp only [hostStep, takeNextInput, hphase, hinputs]

/-- A run takes its first step and goes on from there. -/
theorem run_succ {M : Host.Core} {s t : M.State} (h : M.step s = .next t) (k : Nat) : M.run (k + 1) s = M.run k t := by
  rw [Host.Core.run, h]

/-- The state in which a bare request of an idle host has been answered: a transaction more on record (R92). -/
def State.afterRequest (s : State) (r : Request) (rest : List Input) : State :=
  { s with
    inputs := rest
    received := some (answer r)
    transactions := s.transactions ++ [⟨r, answer r⟩] }

/-- A request that waits as input of an idle host is presented in one step and answered in the next (R26, R92). -/
theorem run_request {s : State} {r : Request} {rest : List Input} (hquiet : s.Quiescent) (hphase : s.phase = .idle)
    (hinputs : s.inputs = .request (encodeRequest r) :: rest) (k : Nat) :
    core.run (k + 2) s = core.run k (s.afterRequest r rest) := by
  obtain ⟨hreset, hport, hinbox⟩ := hquiet
  obtain ⟨t, hpresent, hstep⟩ := present_then_step (s := { s with inputs := rest }) hreset hport r
  have htake : step s = .next t := (step_idle ⟨hreset, hport, hinbox⟩ hphase hinputs).trans hpresent
  have hanswer : step t = .next (s.afterRequest r rest) := by rw [hstep, State.afterRequest, hport]
  calc core.run (k + 2) s
    _ = core.run (k + 1) t := run_succ (M := core) htake (k + 1)
    _ = core.run k (s.afterRequest r rest) := run_succ (M := core) hanswer k

/-- Settles O17: the two requests of `PROCESS` are answered one after the other, each in two steps. -/
theorem processIsDecryptThenValidate : Obligations.ProcessIsDecryptThenValidate := by
  intro s raw rest hquiet hphase hinputs
  refine (run_request hquiet hphase hinputs 2).trans ((run_request ?_ ?_ rfl 0).trans ?_)
  · exact hquiet
  · exact hphase
  · simp [Host.Core.run, State.afterRequest, answer, process]

/-- Settles O41: each operation's response is of its own kind, and the other part of it is refused. -/
theorem undrivenPartOfAResponseIsRefused : Obligations.UndrivenPartOfAResponseIsRefused :=
  fun operand s =>
    ⟨⟨_, .frame (decrypt Config.KEY operand), exec_toInstr ⟨.decrypt, operand⟩ s, rfl, rfl, rfl⟩,
      ⟨_, .verdict (validate operand), exec_toInstr ⟨.validate, operand⟩ s, rfl, rfl, rfl⟩⟩

end Sys2Proof.Machine
end

section
/-! PROOF. A table word put before the machine is run by the next step (30_encoding.md R41). -/

namespace Sys2Proof.Machine

/-- The decoder reads a table word through its carrier. -/
theorem wire_of_decodeTableWord {nbits w : Nat} {i : Instr} (h : decodeTableWord nbits w = some i) :
    ∃ wire, wireOfTableWord nbits w = .ok wire ∧ decode wire = .ok i := by
  rw [decodeTableWord, decodeBytes, ← wireOfTableWord] at h
  cases hwire : wireOfTableWord nbits w with
  | error e => simp [hwire] at h
  | ok wire =>
    refine ⟨wire, rfl, ?_⟩
    cases hdecode : decode wire with
    | error e => simp [hwire, hdecode] at h
    | ok j => simpa [hwire, hdecode] using h

/-- Settles O28: a placed request is the one at the port, a placed frame the one before the consumer of an idle core,
and a step runs what these decode to (O27). -/
theorem placedTableWordIsRunNext : Obligations.PlacedTableWordIsRunNext := by
  intro s nbits w i h
  obtain ⟨wire, hwire, hdecode⟩ := wire_of_decodeTableWord h
  have hplaced : s.withFetchWord nbits w = place wire s := by rw [State.withFetchWord, hwire]
  rw [hplaced]
  cases wire with
  | command word => exact .inl (stepRunsTheDecodedInstruction.1 _ word i rfl rfl hdecode)
  | dframe word => exact .inr (stepRunsTheDecodedInstruction.2 _ word i rfl rfl rfl hdecode)

end Sys2Proof.Machine
end

section
/-! PROOF. A written line reads back (30_encoding.md R39, R40). -/

namespace Sys2Proof.Machine

/-- A written digit reads back. -/
theorem hexValue_hexDigit {n : Nat} (h : n < 16) : hexValue (hexDigit n) = some n := by
  have hdigits : ∀ n < 16, hexValue (hexDigit n) = some n := by decide
  exact hdigits n h

/-- A written digit is none of the characters that are no digit. -/
theorem hexDigit_ne {n : Nat} {c : Char} (h : n < 16) (hc : hexValue c = none) : hexDigit n ≠ c := by
  intro heq
  have hread := hexValue_hexDigit h
  rw [heq, hc] at hread
  cases hread

/-- A written byte reads back. -/
@[simp] theorem readByte_byteText (b : Byte) : readByte (byteText b) = some b := by
  have hhigh : b.toNat / 16 < 16 := by omega
  have hlow : b.toNat % 16 < 16 := by omega
  simp only [readByte, byteText, hexValue_hexDigit hhigh, hexValue_hexDigit hlow, Nat.div_add_mod, BitVec.ofNat_toNat,
    BitVec.setWidth_eq]

/-- A written frame reads back. -/
@[simp] theorem readFrame_map_byteText (f : Frame) : readFrame (f.toList.map byteText) = some f := by
  simp [readFrame, Array8.toList]

/-- A word that a line may contain as such (R39). -/
structure IsWord (word : Text) : Prop where
  nonempty : word ≠ []
  noBlank : ' ' ∉ word
  noComment : ';' ∉ word
  noResponse : word ≠ ['-', '>']

/-- A written byte is two digits, and no blank, semicolon or dash is a digit. -/
theorem isWord_byteText (b : Byte) : IsWord (byteText b) := by
  have hnotin {c : Char} (hc : hexValue c = none) : c ∉ byteText b := by
    intro hmem
    simp only [byteText, List.mem_cons, List.not_mem_nil, or_false] at hmem
    rcases hmem with hhigh | hlow
    · exact hexDigit_ne (by omega) hc hhigh.symm
    · exact hexDigit_ne (by omega) hc hlow.symm
  exact ⟨List.cons_ne_nil _ _, hnotin rfl, hnotin rfl, fun harrow => hnotin (c := '-') rfl (by simp [harrow])⟩

/-- The words of an operand are its bytes. -/
theorem isWord_of_mem_operand {f : Frame} : ∀ w ∈ f.toList.map byteText, IsWord w :=
  List.forall_mem_map.2 fun b _ => isWord_byteText b

/-- The names of the operations are words, and so is the `$` for the response before. -/
theorem isWord_names : IsWord decryptName ∧ IsWord validateName ∧ IsWord processName ∧ IsWord ['$'] := by
  refine ⟨?_, ?_, ?_, ?_⟩ <;> constructor <;> decide

/-- Words written one after the other with a blank before each. -/
def spaced (words : List Text) : Text := words.flatMap (' ' :: ·)

/-- An operand is written as its bytes, so spaced. -/
theorem spaced_map_byteText (f : Frame) : spaced (f.toList.map byteText) = operandText f :=
  List.flatMap_map ..

/-- Characters that are no blank are collected to the word being read. -/
theorem wordsFrom_append {word : Text} (h : ' ' ∉ word) (acc rest : Text) :
    wordsFrom acc (word ++ rest) = wordsFrom (word.reverse ++ acc) rest := by
  induction word generalizing acc with
  | nil => rfl
  | cons c word ih =>
    obtain ⟨hc, hword⟩ := not_or.1 (mt List.mem_cons.2 h)
    simp [wordsFrom, Ne.symm hc, ih hword]

/-- Words written with a blank before each are read as these words, after the word being read. -/
theorem wordsFrom_spaced {acc : Text} {words : List Text} (hacc : acc ≠ []) (hwords : ∀ w ∈ words, IsWord w) :
    wordsFrom acc (spaced words) = acc.reverse :: words := by
  induction words generalizing acc with
  | nil => simp [spaced, wordsFrom, hacc]
  | cons word words ih =>
    obtain ⟨hword, hrest⟩ := List.forall_mem_cons.1 hwords
    have hreverse : word.reverse ≠ [] := mt List.reverse_eq_nil_iff.1 hword.nonempty
    calc wordsFrom acc (spaced (word :: words))
      _ = acc.reverse :: wordsFrom [] (word ++ spaced words) := by simp [spaced, wordsFrom, hacc]
      _ = acc.reverse :: wordsFrom word.reverse (spaced words) := by rw [wordsFrom_append hword.noBlank, List.append_nil]
      _ = acc.reverse :: word :: words := by rw [ih hreverse hrest, List.reverse_reverse]

/-- A line written from words reads as these words: no comment and no response cuts it short (R39). -/
theorem words_of_line {name : Text} {args : List Text} (hname : IsWord name) (hargs : ∀ w ∈ args, IsWord w) :
    (wordsFrom [] ((name ++ spaced args).takeWhile (· != ';'))).takeWhile (· != ['-', '>']) = name :: args := by
  have hcomment : (name ++ spaced args).takeWhile (· != ';') = name ++ spaced args := by
    rw [List.takeWhile_eq_self_iff]
    intro c hc
    rw [bne_iff_ne]
    rintro rfl
    rcases List.mem_append.1 hc with hin | hin
    · exact hname.noComment hin
    · obtain ⟨w, hw, hin⟩ := List.mem_flatMap.1 hin
      exact (hargs w hw).noComment (List.mem_of_ne_of_mem (by decide) hin)
  have hreverse : name.reverse ≠ [] := mt List.reverse_eq_nil_iff.1 hname.nonempty
  have hread : wordsFrom [] (name ++ spaced args) = name :: args := by
    rw [wordsFrom_append hname.noBlank, List.append_nil, wordsFrom_spaced hreverse hargs, List.reverse_reverse]
  have hresponse : ∀ w ∈ name :: args, (w != ['-', '>']) = true :=
    List.forall_mem_cons.2 ⟨bne_iff_ne.2 hname.noResponse, fun w hw => bne_iff_ne.2 (hargs w hw).noResponse⟩
  rw [hcomment, hread, List.takeWhile_eq_self_iff.2 hresponse]

/-- Settles O26: the words of a line are its name and its operand's bytes, which name the line and read back. -/
theorem readingAWrittenLineGivesTheLine : Obligations.ReadingAWrittenLineGivesTheLine := by
  obtain ⟨hdecrypt, hvalidate, hprocess, hlast⟩ := isWord_names
  have hvalidateName : validateName ≠ decryptName := by decide
  have hprocessName : processName ≠ decryptName ∧ processName ≠ validateName := by decide
  intro l
  cases l with
  | decrypt f =>
    rw [Line.text, ← spaced_map_byteText, readLine, words_of_line hdecrypt isWord_of_mem_operand]
    simp
  | validate f =>
    have hoperand : f.toList.map byteText ≠ [['$']] := fun h => absurd (congrArg List.length h) (by simp)
    rw [Line.text, ← spaced_map_byteText, readLine, words_of_line hvalidate isWord_of_mem_operand]
    simp [hvalidateName, hoperand]
  | validateLast =>
    have htext : Line.validateLast.text = validateName ++ spaced [['$']] := rfl
    rw [htext, readLine, words_of_line hvalidate (List.forall_mem_singleton.2 hlast)]
    simp [hvalidateName]
  | process f =>
    rw [Line.text, ← spaced_map_byteText, readLine, words_of_line hprocess isWord_of_mem_operand]
    simp [hprocessName]

end Sys2Proof.Machine
end

section
/-! PROOF. The three stages of DECRYPT, element by element (40_decrypt.md R43 to R45, R48). -/

namespace Sys2Proof.Machine

/-- A loop that writes `v i` at `σ i` for the listed `i`, with no two of them at the same place, leaves `v i` there
and every other element as it was. -/
theorem get_foldl_set {α : Type} {σ : Fin 8 → Fin 8} (hσ : Function.Injective σ) (v : Fin 8 → α)
    (written : List (Fin 8)) (d : Array8 α) (i : Fin 8) :
    (written.foldl (fun d j => d.set (σ j) (v j)) d).get (σ i) = if i ∈ written then v i else d.get (σ i) := by
  induction written generalizing d with
  | nil => simp
  | cons j js ih =>
    rw [List.foldl_cons, ih]
    by_cases hj : i = j
    · simp [hj]
    · simp [hj, Array8.get_set_other d (v j) (hσ.ne hj)]

/-- R43: the loop of stage 1 runs over every index, and the shuffle sends no two of them to the same place. -/
theorem stage1Into_get_shuf (scratch key frame : Frame) (i : Fin 8) :
    (stage1Into scratch key frame).get (Config.SHUF.get i) = frame.get i ^^^ key.get (Config.SHUF.get i) := by
  have hall : ∀ i, i ∈ indices := by decide
  rw [stage1Into, get_foldl_set shuf_involutive.injective
    (fun i => frame.get i ^^^ key.get (Config.SHUF.get i)), if_pos (hall i)]

/-- R48: the gather form, since the shuffle is its own inverse. -/
@[simp] theorem stage1_get (key frame : Frame) (i : Fin 8) :
    (stage1 key frame).get i = frame.get (Config.SHUF.get i) ^^^ key.get i := by
  have h := stage1Into_get_shuf (Array8.ofFn fun _ => 0) key frame (Config.SHUF.get i)
  rwa [shuf_involutive i] at h

/-- Settles O3: the scatter form is the loop's, the gather form reads it at the shuffled index. -/
theorem stageOneScattersAndGathersThroughTheShuffle : Obligations.StageOneScattersAndGathersThroughTheShuffle :=
  fun scratch key frame i => ⟨stage1Into_get_shuf scratch key frame i, stage1_get key frame i⟩

@[simp] theorem stage2_get (dataXor : Frame) (i : Fin 8) :
    (stage2 dataXor).get i = rotateByte (dataXor.get i) (dataXor.get (prevIndex i)) :=
  Array8.get_ofFn _ i

/-- R44, `{ p[2:0], x[7:3] }`: on bytes, the shift right leaves bits 4..0 and the shift left bits 7..5. -/
theorem rotateByte_getLsbD (x p : Byte) {k : Nat} (hk : k < 8) :
    (rotateByte x p).getLsbD k = if k < 5 then x.getLsbD (k + 3) else p.getLsbD (k - 5) := by
  rw [rotateByte_eq, BitVec.getLsbD_or, BitVec.getLsbD_ushiftRight, BitVec.getLsbD_shiftLeft]
  split
  next hlow => simp [hlow, Nat.add_comm]
  next hhigh =>
    have hbeyond : x.getLsbD (3 + k) = false := BitVec.getLsbD_of_ge _ _ (by omega)
    simp [hhigh, hbeyond, hk]

/-- Settles O4: the predecessor's index is the model's `prevIndex`. -/
theorem stageTwoTakesThreeBitsFromThePredecessor : Obligations.StageTwoTakesThreeBitsFromThePredecessor := by
  intro dataXor i p hp k
  obtain rfl : p = prevIndex i := Fin.ext hp
  rw [stage2_get, rotateByte_getLsbD _ _ k.isLt]

@[simp] theorem stage3_get (dataTmp : Frame) (i : Fin 8) : (stage3 dataTmp).get i = dataTmp.get i - ctmp.get i :=
  (Array8.get_ofFn _ i).trans (subtractByte_eq _ _)

/-- Settles O5: a byte's subtraction on numbers, with the nibble swap's number. -/
theorem stageThreeSubtractsTheSwappedByteModulo256 : Obligations.StageThreeSubtractsTheSwappedByteModulo256 := by
  intro dataTmp i
  have hswapped := nibbleSwap_toNat (Config.CSTATE.get i)
  have hbyte := (nibbleSwap (Config.CSTATE.get i)).isLt
  rw [stage3_get, ctmp_get, BitVec.toNat_sub, ← hswapped]
  omega

end Sys2Proof.Machine
end

section
/-! PROOF. DECRYPT as an instruction: it completes, and its response is the frame's alone (R46, R47). -/

namespace Sys2Proof.Machine

/-- R46: the response of `DECRYPT` is `decrypt` at the hard-wired key. -/
theorem exec_decrypt (frame : Frame) (s : State) :
    exec (.decrypt frame) s = .next (s.respond ⟨.decrypt, frame⟩ (.frame (decrypt Config.KEY frame))) :=
  exec_toInstr ⟨.decrypt, frame⟩ s

/-- Settles O9: `respond` records the transaction and hands the response over, and changes no other field. -/
theorem decryptAlwaysAnswersEightBytes : Obligations.DecryptAlwaysAnswersEightBytes :=
  exec_decrypt

/-- Settles O10: the response that either state receives names no state. -/
theorem decryptDependsOnNothingButTheFrame : Obligations.DecryptDependsOnNothingButTheFrame :=
  fun frame s s' => ⟨_, _, exec_decrypt frame s, exec_decrypt frame s', State.respond_received .., by
    rw [State.respond_received, State.respond_received]⟩

end Sys2Proof.Machine
end

section
/-! PROOF. DECRYPT on 64-bit words (R49). -/

namespace Sys2Proof.Machine

/-- Bit `k` of byte `i` in the word of a frame (20_memory.md R28). -/
theorem packFrame_getLsbD (a : Frame) (i : Fin 8) {k : Nat} (hk : k < 8) :
    (packFrame a).getLsbD (56 - 8 * i.val + k) = (a.get i).getLsbD k := by
  rw [← extractLsb'_packFrame, BitVec.getLsbD_extractLsb', decide_eq_true hk, Bool.true_and]

/-- The bit of the word that the rotation moves to bit `k` of byte `i`: from the same byte below the top three bits,
and from the byte before it, around the word, for those. -/
theorem rotateRight_three_getLsbD (a : Frame) (i : Fin 8) {k : Nat} (hk : k < 8) :
    ((packFrame a).rotateRight 3).getLsbD (56 - 8 * i.val + k) =
      if k < 5 then (a.get i).getLsbD (k + 3) else (a.get (prevIndex i)).getLsbD (k - 5) := by
  rw [BitVec.getLsbD_rotateRight]
  split
  next hlow =>
    rw [← packFrame_getLsbD a i (by omega), decide_eq_true (by omega), cond_true]
    congr 1
    omega
  next hhigh =>
    have hprev : (prevIndex i).val = (i.val + 7) % 8 := rfl
    rw [← packFrame_getLsbD a (prevIndex i) (by omega)]
    by_cases hfirst : i.val = 0
    · rw [decide_eq_false (by omega), cond_false, decide_eq_true (by omega), Bool.true_and]
      congr 1
      omega
    · rw [decide_eq_true (by omega), cond_true]
      congr 1
      omega

/-- R49: the three bits that leave a byte enter the next one, and those of byte 7 enter byte 0. -/
theorem packFrame_stage2 (dataXor : Frame) : packFrame (stage2 dataXor) = (packFrame dataXor).rotateRight 3 := by
  rw [← packFrame_unpackFrame ((packFrame dataXor).rotateRight 3)]
  refine congrArg packFrame (Array8.ext_get fun i => BitVec.eq_of_getLsbD_eq fun k hk => ?_)
  rw [stage2_get, rotateByte_getLsbD _ _ hk, unpackFrame, Array8.get_ofFn, BitVec.getLsbD_extractLsb',
    decide_eq_true hk, Bool.true_and, rotateRight_three_getLsbD dataXor i hk]

/-- Words are xored byte by byte. -/
theorem packFrame_xor (a b : Frame) :
    packFrame a ^^^ packFrame b = packFrame (Array8.ofFn fun i => a.get i ^^^ b.get i) := by
  rw [← packFrame_unpackFrame (packFrame a ^^^ packFrame b)]
  refine congrArg packFrame (Array8.ext_get fun i => ?_)
  rw [unpackFrame, Array8.get_ofFn, Array8.get_ofFn, BitVec.extractLsb'_xor, extractLsb'_packFrame,
    extractLsb'_packFrame]

/-- R48 on words: stage 1 permutes the frame and xors the key. -/
theorem packFrame_stage1 (key frame : Frame) :
    packFrame (stage1 key frame) =
      packFrame (Array8.ofFn fun j => frame.get (Config.SHUF.get j)) ^^^ packFrame key := by
  rw [packFrame_xor]
  exact congrArg packFrame (Array8.ext_get fun i => by simp)

/-- Settles O6: the rotated word is the word of stage 2, whose byte `i` stage 3 subtracts from. -/
theorem decryptIsWordRotationThenByteSubtraction : Obligations.DecryptIsWordRotationThenByteSubtraction := by
  refine ⟨packFrame_stage2, fun key frame i => ?_⟩
  rw [← packFrame_stage1, ← packFrame_stage2, unpackFrame_packFrame, decrypt, stage3_get]

end Sys2Proof.Machine
end

section
/-! PROOF. Which raw bits a decoded byte depends on (R50). -/

namespace Sys2Proof.Machine

@[simp] theorem prevIndex_nextIndex (i : Fin 8) : prevIndex (nextIndex i) = i := by
  revert i
  decide

@[simp] theorem nextIndex_prevIndex (i : Fin 8) : nextIndex (prevIndex i) = i := by
  revert i
  decide

/-- Stage 2 of a byte on numbers: its top five bits go down, its predecessor's low three bits go on top (R44). -/
theorem rotateByte_toNat (x p : Byte) : (rotateByte x p).toNat = x.toNat / 8 + 32 * (p.toNat % 8) := by
  have hlow : x.toNat >>> 3 < 2 ^ 5 := by rw [Nat.shiftRight_eq_div_pow]; omega
  rw [rotateByte, masked_toNat, Nat.or_comm, ← Nat.shiftLeft_add_eq_or_of_lt hlow, Nat.shiftLeft_eq,
    Nat.shiftRight_eq_div_pow]
  omega

/-- A byte of stage 2 holds the top five bits of its source and the low three of the predecessor, and no other. -/
theorem rotateByte_eq_iff (x p y q : Byte) :
    rotateByte x p = rotateByte y q ↔ x >>> 3 = y >>> 3 ∧ p &&& 7 = q &&& 7 := by
  have hlow (z : Byte) : (z &&& 7).toNat = z.toNat % 8 := Nat.and_two_pow_sub_one_eq_mod _ 3
  simp only [← BitVec.toNat_inj, rotateByte_toNat, BitVec.toNat_ushiftRight, Nat.shiftRight_eq_div_pow, hlow]
  omega

theorem decrypt_get (key frame : Frame) (j : Fin 8) :
    (decrypt key frame).get j =
      rotateByte (frame.get (Config.SHUF.get j) ^^^ key.get j)
        (frame.get (Config.SHUF.get (prevIndex j)) ^^^ key.get (prevIndex j)) - ctmp.get j := by
  rw [decrypt, stage3_get, stage2_get, stage1_get, stage1_get]

/-- R50 read the other way: decoded byte `j` is a function of the top five bits of raw byte `SHUF[j]` and the low three
of raw byte `SHUF[(j - 1 + 8) mod 8]`, and different ones never give the same byte. -/
theorem decrypt_get_eq_iff (key f g : Frame) (j : Fin 8) :
    (decrypt key f).get j = (decrypt key g).get j ↔
      f.get (Config.SHUF.get j) >>> 3 = g.get (Config.SHUF.get j) >>> 3 ∧
        f.get (Config.SHUF.get (prevIndex j)) &&& 7 = g.get (Config.SHUF.get (prevIndex j)) &&& 7 := by
  have hlow (x k : Byte) : (x ^^^ k) &&& 7 = (x &&& 7) ^^^ (k &&& 7) :=
    BitVec.eq_of_toNat_eq Nat.and_xor_distrib_right
  rw [decrypt_get, decrypt_get, BitVec.sub_left_inj, rotateByte_eq_iff, BitVec.ushiftRight_xor_distrib,
    BitVec.ushiftRight_xor_distrib, BitVec.xor_left_inj, hlow, hlow, BitVec.xor_left_inj]

/-- Settles O7: decoded bytes are compared by the raw bits they depend on, and `SHUF` is its own inverse. -/
theorem rawByteReachesExactlyTwoDecodedBytes : Obligations.RawByteReachesExactlyTwoDecodedBytes := by
  intro key frame i v
  simp only [ne_eq, decrypt_get_eq_iff]
  refine ⟨fun j hown hnext => ?_, fun htop ⟨hsame, _⟩ => htop ?_,
    fun hlow ⟨_, hsame⟩ => hlow ?_⟩
  · have hj : Config.SHUF.get j ≠ i := fun h => hown (by rw [← h, shuf_involutive])
    have hprev : Config.SHUF.get (prevIndex j) ≠ i := fun h =>
      hnext (by rw [← h, shuf_involutive, nextIndex_prevIndex])
    rw [Array8.get_set_other _ _ hj, Array8.get_set_other _ _ hprev]
    exact ⟨rfl, rfl⟩
  · simpa only [shuf_involutive i, Array8.get_set_same] using hsame
  · simpa only [prevIndex_nextIndex, shuf_involutive i, Array8.get_set_same] using hsame

end Sys2Proof.Machine
end

section
/-! PROOF. DECRYPT is a bijection with inverse `encrypt`, stage by stage (R51, R52). -/

namespace Sys2Proof.Machine

@[simp] theorem unstage1_get (key dataXor : Frame) (i : Fin 8) :
    (unstage1 key dataXor).get i = dataXor.get (Config.SHUF.get i) ^^^ key.get (Config.SHUF.get i) :=
  Array8.get_ofFn _ i

/-- Undoing stage 2 of a byte on numbers: its low five bits go up, its successor's top three bits go below (R51). -/
theorem unstage2_get_toNat (dataTmp : Frame) (i : Fin 8) :
    ((unstage2 dataTmp).get i).toNat =
      8 * ((dataTmp.get i).toNat % 32) + (dataTmp.get (nextIndex i)).toNat / 32 := by
  have hlow : (dataTmp.get (nextIndex i)).toNat >>> 5 < 2 ^ 3 := by rw [Nat.shiftRight_eq_div_pow]; omega
  rw [unstage2, Array8.get_ofFn, masked_toNat, ← Nat.shiftLeft_add_eq_or_of_lt hlow,
    Nat.and_two_pow_sub_one_eq_mod _ 5, Nat.shiftLeft_eq, Nat.shiftRight_eq_div_pow]
  omega

/-- The sum with the mask is addition of bytes (R51). -/
@[simp] theorem unstage3_get (decoded : Frame) (i : Fin 8) :
    (unstage3 decoded).get i = decoded.get i + ctmp.get i := by
  apply BitVec.eq_of_toNat_eq
  rw [unstage3, Array8.get_ofFn, masked_toNat, BitVec.toNat_add]

/-- Stage 1 permutes by an involution and xors a constant. -/
def stage1Equiv (key : Frame) : Frame ≃ Frame where
  toFun := stage1 key
  invFun := unstage1 key
  left_inv f := Array8.ext_get fun i => by
    rw [unstage1_get, stage1_get, shuf_involutive, BitVec.xor_assoc, BitVec.xor_self, BitVec.xor_zero]
  right_inv d := Array8.ext_get fun i => by
    rw [stage1_get, unstage1_get, shuf_involutive, BitVec.xor_assoc, BitVec.xor_self, BitVec.xor_zero]

/-- Stage 2 rotates: the three bits that a byte hands to its successor come back from there. -/
def stage2Equiv : Frame ≃ Frame where
  toFun := stage2
  invFun := unstage2
  left_inv d := Array8.ext_get fun i => BitVec.eq_of_toNat_eq <| by
    rw [unstage2_get_toNat, stage2_get, stage2_get, rotateByte_toNat, rotateByte_toNat, prevIndex_nextIndex]
    omega
  right_inv t := Array8.ext_get fun i => BitVec.eq_of_toNat_eq <| by
    rw [stage2_get, rotateByte_toNat, unstage2_get_toNat, unstage2_get_toNat, nextIndex_prevIndex]
    omega

/-- Stage 3 subtracts a constant from each byte. -/
def stage3Equiv : Frame ≃ Frame where
  toFun := stage3
  invFun := unstage3
  left_inv t := Array8.ext_get fun i => by rw [unstage3_get, stage3_get, BitVec.sub_add_cancel]
  right_inv d := Array8.ext_get fun i => by rw [stage3_get, unstage3_get, BitVec.add_sub_cancel]

/-- `decrypt` and `encrypt` are the three stages in order and their inverses in the opposite order (R42, R51). -/
def decryptEquiv (key : Frame) : Frame ≃ Frame :=
  ((stage1Equiv key).trans stage2Equiv).trans stage3Equiv

@[simp] theorem decrypt_encrypt (key d : Frame) : decrypt key (encrypt key d) = d :=
  (decryptEquiv key).apply_symm_apply d

@[simp] theorem encrypt_decrypt (key f : Frame) : encrypt key (decrypt key f) = f :=
  (decryptEquiv key).symm_apply_apply f

theorem decrypt_bijective (key : Frame) : Function.Bijective (decrypt key) :=
  (decryptEquiv key).bijective

end Sys2Proof.Machine
end

section
/-! PROOF. How many frames VALIDATE accepts, decoded and raw (41_validate.md R55, R52). -/

namespace Sys2Proof.Machine

/-- An accepted frame is its six free bytes: bytes 3 and 4 are the checksum and the terminator (R55). -/
def validFrameEquiv : { d : Frame // validate d = true } ≃ Byte × Byte × Byte × Byte × Byte × Byte where
  toFun d := (d.1.a0, d.1.a1, d.1.a2, d.1.a5, d.1.a6, d.1.a7)
  invFun := fun (b0, b1, b2, b5, b6, b7) =>
    ⟨⟨b0, b1, b2, b0 + b1 + b2, Config.TERMINATOR, b5, b6, b7⟩, (validate_iff _).2 ⟨rfl, rfl⟩⟩
  left_inv d := by
    obtain ⟨d, hvalid⟩ := d
    obtain ⟨hend, hsum⟩ := (validate_iff d).1 hvalid
    simp only [← hend, ← hsum]
  right_inv _ := rfl

/-- Six free bytes have 48 bits (R52). -/
theorem card_validFrames : Nat.card { d : Frame // validate d = true } = 2 ^ 48 := by
  have hbyte : Nat.card Byte = 2 ^ 8 := by
    rw [Nat.card_congr (BitVec.equivFin (m := 8)).toEquiv, Nat.card_fin]
  rw [Nat.card_congr validFrameEquiv]
  simp only [Nat.card_prod, hbyte]
  norm_num

/-- The one pair of bytes 3 and 4 that VALIDATE accepts beside the others is the checksum and the terminator (R55). -/
theorem existsUnique_checksum_terminator (b0 b1 b2 b5 b6 b7 : Byte) :
    ∃! p : Byte × Byte, validate ⟨b0, b1, b2, p.1, p.2, b5, b6, b7⟩ = true := by
  refine ⟨(b0 + b1 + b2, Config.TERMINATOR), (validate_iff _).2 ⟨rfl, rfl⟩, fun p hvalid => ?_⟩
  obtain ⟨hend, hsum⟩ := (validate_iff _).1 hvalid
  exact Prod.ext hsum hend

/-- DECRYPT carries the raw frames it maps to an accepted frame one to one onto the accepted frames (R52). -/
theorem card_validRawFrames (key : Frame) : Nat.card { f : Frame // validate (decrypt key f) = true } = 2 ^ 48 :=
  (Nat.card_congr ((decryptEquiv key).subtypeEquivOfSubtype (p := fun d => validate d = true))).trans card_validFrames

/-- Settles O8: the stages are equivalences, so their composite is one, and the accepted frames are counted by their
free bytes. -/
theorem decryptIsABijectionWithInverseEncrypt : Obligations.DecryptIsABijectionWithInverseEncrypt :=
  ⟨decrypt_encrypt, encrypt_decrypt, decrypt_bijective, fun key => (stage1Equiv key).bijective, stage2Equiv.bijective,
    stage3Equiv.bijective, existsUnique_checksum_terminator, card_validRawFrames Config.KEY⟩

end Sys2Proof.Machine
end

section
/-! PROOF. The checksum law and the verdict (41_validate.md R54 to R57). -/

namespace Sys2Proof.Machine

/-- The checksum on numbers: a residue modulo 256 fits in a byte (R54). -/
theorem checksum_toNat (d : Frame) : (checksum d).toNat = (d.a0.toNat + d.a1.toNat + d.a2.toNat) % 256 := by
  rw [checksum, BitVec.toNat_ofNat, Nat.mod_mod]

/-- Settles O12. -/
theorem checksumIsTheSumOfThreeBytesModulo256 : Obligations.ChecksumIsTheSumOfThreeBytesModulo256 :=
  checksum_toNat

/-- The verdict on numbers (R54, R55). -/
theorem validate_iff_toNat (d : Frame) :
    validate d = true ↔ d.a4.toNat = 13 ∧ d.a3.toNat = (d.a0.toNat + d.a1.toNat + d.a2.toNat) % 256 := by
  rw [validate_iff, ← checksum_eq, ← BitVec.toNat_inj, ← BitVec.toNat_inj, checksum_toNat]
  rfl

/-- Settles O13: a response of `VALIDATE` holds the verdict and nothing else of the operand. -/
theorem verdictNeedsTerminatorAndChecksum : Obligations.VerdictNeedsTerminatorAndChecksum := by
  refine ⟨fun d => ?_, fun d d' hd hd' => ?_⟩
  · rw [validate_iff, checksum_eq]
    rfl
  · rw [answer, answer, hd, hd']

/-- Settles O14: the verdict is computed from the five bytes that agree. -/
theorem verdictIgnoresTheLastThreeBytes : Obligations.VerdictIgnoresTheLastThreeBytes := by
  intro d d' h
  have h0 : d.a0 = d'.a0 := h 0 (by decide)
  have h1 : d.a1 = d'.a1 := h 1 (by decide)
  have h2 : d.a2 = d'.a2 := h 2 (by decide)
  have h3 : d.a3 = d'.a3 := h 3 (by decide)
  have h4 : d.a4 = d'.a4 := h 4 (by decide)
  rw [Bool.eq_iff_iff, validate_iff, validate_iff, h0, h1, h2, h3, h4]

/-- The law solved for each of its bytes: a byte among 0 to 4 of a valid frame is determined by the other four (R57). -/
theorem eq_get_of_validate_set {d : Frame} {i : Fin 8} {v : Byte} (hi : i.val ≤ 4) (hd : validate d = true)
    (hset : validate (d.set i v) = true) : v = d.get i := by
  obtain ⟨hend, hsum⟩ := (validate_iff d).1 hd
  obtain ⟨hend', hsum'⟩ := (validate_iff _).1 hset
  match i, hi with
  | 0, _ => exact (BitVec.add_left_inj _).1 ((BitVec.add_left_inj _).1 (hsum'.symm.trans hsum))
  | 1, _ => exact (BitVec.add_right_inj _).1 ((BitVec.add_left_inj _).1 (hsum'.symm.trans hsum))
  | 2, _ => exact (BitVec.add_right_inj _).1 (hsum'.symm.trans hsum)
  | 3, _ => exact hsum'.trans hsum.symm
  | 4, _ => exact hend'.trans hend.symm

/-- One more in byte 1 and one less in byte 2 leave the sum as it is (R57). -/
theorem validate_set_cancelling (d : Frame) :
    validate ((d.set 1 (d.a1 + 1)).set 2 (d.a2 - 1)) = validate d := by
  have hsum : d.a0 + (d.a1 + 1) + (d.a2 - 1) = d.a0 + d.a1 + d.a2 := by
    rw [← BitVec.add_assoc, BitVec.add_assoc (d.a0 + d.a1), BitVec.add_comm 1, BitVec.sub_add_cancel]
  rw [Bool.eq_iff_iff, validate_iff, validate_iff, ← hsum]
  rfl

/-- Settles O15: the law is the verdict on numbers, the valid frames are counted in O8's proof, and a changed byte that
stayed valid would be the one the law determines. -/
theorem everySingleByteChangeOfAValidFrameIsDetected : Obligations.EverySingleByteChangeOfAValidFrameIsDetected := by
  refine ⟨fun d => ?_, card_validFrames, fun d i v hd hi hv => ?_, fun d hd => ?_⟩
  · rw [validate_iff_toNat, and_comm, ← BitVec.toNat_inj]
    rfl
  · exact Bool.eq_false_iff.2 fun hset => hv (eq_get_of_validate_set hi hd hset)
  · rw [validate_set_cancelling, hd]

/-- Settles O11: `respond` records the verdict and hands it over, and changes no other field. -/
theorem validateAlwaysAnswersTheVerdict : Obligations.ValidateAlwaysAnswersTheVerdict := by
  intro decoded s verdict
  have hverdict : validate decoded = verdict :=
    Bool.eq_iff_iff.2 ((validate_iff_toNat decoded).trans decide_eq_true_iff.symm)
  rw [← hverdict]
  exact exec_toInstr ⟨.validate, decoded⟩ s

end Sys2Proof.Machine
end

section
/-! PROOF. What an invalid frame ends in: `ChecksumError` (41_validate.md R58, 60_exceptions.md R69, R71). -/

namespace Sys2Proof.Machine

/-- The error entry as one update: polling is stopped, then the error is reported (R71). -/
theorem State.failTransfer_eq (e : ErrorKind) (s : State) :
    s.failTransfer e = { s with
      polling := false
      phase := .idle
      actions := s.actions ++ [.stopPolling,
        .report (if s.phase = .idle then .rejected e else .transferFailed e)] } := by
  simp [State.failTransfer, State.stopPolling, State.act]

/-- A context row whose constraint fails takes the error entry: its frame is not valid (R41, R58). -/
theorem exec_of_not_wellFormed {i : Instr} (h : i.wellFormed = false) (s : State) :
    exec i s = .next (s.failTransfer .checksumError) := by
  cases i with
  | decrypt frame => cases h
  | validate decoded => cases h
  | frameTemp body => exact congrArg _ (consume_invalid ((validate_toFrame _ body).trans h) _ s)
  | frameCo2 body => exact congrArg _ (consume_invalid ((validate_toFrame _ body).trans h) _ s)

/-- Settles O34. -/
theorem invalidFrameOfARowIsAChecksumError : Obligations.InvalidFrameOfARowIsAChecksumError := by
  intro i s h
  rw [exec_of_not_wellFormed h, State.failTransfer_eq]

/-- A host that holds verdict 0 takes the error entry (R58, R69). -/
theorem hostStep_verdict_zero {s : State} {d : Frame} (hphase : s.phase = .awaitVerdict d)
    (hreceived : s.received = some (.verdict false)) : hostStep s = .next (s.failTransfer .checksumError) := by
  simp only [hostStep, hphase, hreceived, Response.valid]

/-- Settles O49: a transfer is outstanding while the host awaits a verdict, so the report is that transfer's failure. -/
theorem verdictZeroEndsTheTransferWithChecksumError : Obligations.VerdictZeroEndsTheTransferWithChecksumError := by
  intro s d hquiet hphase hreceived
  have houtstanding : s.phase ≠ .idle := by simp [hphase]
  rw [step_quiescent hquiet, hostStep_verdict_zero hphase hreceived, State.failTransfer_eq, if_neg houtstanding]

end Sys2Proof.Machine
end

section
/-! PROOF. What a step is, agent by agent, the frame before the consumer included (42_context_frame_consumer.md R63,
R66). -/

namespace Sys2Proof.Machine

/-- A frame with the temperature op byte is ingested as a temperature (R61, R66). -/
theorem ingest_temp {f : Frame} (hop : f.a0 = Config.OP_TEMP) (r : Reading) :
    ingest r f = r.ingestTemp (measurement f.a1 f.a2) := by
  rw [ingest, if_pos hop]

/-- A frame with the CO2 op byte is ingested as a concentration (R62, R66). -/
theorem ingest_co2 {f : Frame} (hop : f.a0 = Config.OP_CO2) (r : Reading) :
    ingest r f = r.ingestCo2 (measurement f.a1 f.a2) := by
  have hother : f.a0 ≠ Config.OP_TEMP := by rw [hop]; decide
  rw [ingest, if_neg hother, if_pos hop]

/-- A frame with any other op byte changes nothing (R63). -/
theorem ingest_unlisted {f : Frame} (htemp : f.a0 ≠ Config.OP_TEMP) (hco2 : f.a0 ≠ Config.OP_CO2) (r : Reading) :
    ingest r f = r := by
  rw [ingest, if_neg htemp, if_neg hco2]

/-- What a frame does at the consumer depends on its effect only where the frame is valid (R65). -/
theorem consume_congr {d : Frame} {effect effect' : Reading → Reading}
    (h : validate d = true → ∀ r, effect r = effect' r) (s : State) : consume d effect s = consume d effect' s := by
  cases hvalid : validate d with
  | true => rw [consume_valid hvalid, consume_valid hvalid, h hvalid]
  | false => rw [consume_invalid hvalid, consume_invalid hvalid]

/-- A terminated frame that is no row of the opcode table has neither documented op byte (R36, R41). -/
theorem unlisted_of_decodeDframe_error {w : BitVec 64} {e : DecodeError} (h : decodeDframe w = .error e)
    (hend : (unpackFrame w).a4 = Config.TERMINATOR) :
    (unpackFrame w).a0 ≠ Config.OP_TEMP ∧ (unpackFrame w).a0 ≠ Config.OP_CO2 := by
  have hother : Config.OP_CO2 ≠ Config.OP_TEMP := by decide
  constructor <;> intro hop <;> simp [decodeDframe, hend, hop, hother] at h

/-- With no reset waiting and the core idle, a frame before the consumer is ingested, whether it is a row of the opcode
table or not: a row's meaning is the branch of `Ingest` for its op byte (R66). -/
theorem step_inbox {s : State} {w : BitVec 64} (hreset : s.resetPending = false) (hport : s.port = none)
    (hinbox : s.inbox = some w) :
    step s = .next (consume (unpackFrame w) (ingest · (unpackFrame w)) { s with inbox := none }) := by
  cases hrow : decodeDframe w with
  | ok i =>
    rw [step_row hreset hport hinbox hrow]
    have hword := encode_of_decodeDframe hrow
    cases i with
    | decrypt frame => cases hword
    | validate decoded => cases hword
    | frameTemp body =>
      obtain rfl : packFrame (body.toFrame Config.OP_TEMP) = w := Wire.dframe.inj hword
      rw [unpackFrame_packFrame]
      exact congrArg Host.Outcome.next (consume_congr (fun _ r => (ingest_temp (FrameBody.toFrame_a0 _ body) r).symm) _)
    | frameCo2 body =>
      obtain rfl : packFrame (body.toFrame Config.OP_CO2) = w := Wire.dframe.inj hword
      rw [unpackFrame_packFrame]
      exact congrArg Host.Outcome.next (consume_congr (fun _ r => (ingest_co2 (FrameBody.toFrame_a0 _ body) r).symm) _)
  | error e =>
    rw [step, fetch_unlisted hreset hport hinbox hrow]
    refine congrArg _ (consume_congr (fun hvalid r => ?_) _)
    obtain ⟨htemp, hco2⟩ := unlisted_of_decodeDframe_error hrow ((validate_iff _).1 hvalid).1
    exact (ingest_unlisted htemp hco2 r).symm

/-- The four things a step can be: a reset is taken, the core answers, the consumer ingests, or the host moves. -/
theorem step_cases (s : State) :
    (s.resetPending = true ∧ step s = .next s.takeReset) ∨
    (∃ w, s.port = some w ∧
      step s = .next (State.respond (decodeRequest w) (answer (decodeRequest w)) { s with port := none })) ∨
    (∃ w, s.port = none ∧ s.inbox = some w ∧
      step s = .next (consume (unpackFrame w) (ingest · (unpackFrame w)) { s with inbox := none })) ∨
    (s.Quiescent ∧ step s = hostStep s) := by
  rcases Bool.eq_false_or_eq_true s.resetPending with hreset | hreset
  · exact .inl ⟨hreset, by rw [step, fetch_reset hreset]⟩
  rcases Option.eq_none_or_eq_some s.port with hport | ⟨w, hport⟩
  · rcases Option.eq_none_or_eq_some s.inbox with hinbox | ⟨w, hinbox⟩
    · have hquiet : s.Quiescent := ⟨hreset, hport, hinbox⟩
      exact .inr (.inr (.inr ⟨hquiet, step_quiescent hquiet⟩))
    · exact .inr (.inr (.inl ⟨w, hport, hinbox, step_inbox hreset hport hinbox⟩))
  · exact .inr (.inl ⟨w, hport, step_request hreset hport⟩)

end Sys2Proof.Machine
end

section
/-! PROOF. What the invariant says of the record of actions, action by action (60_exceptions.md R70, R71). -/

namespace Sys2Proof.Machine

/-- What the invariant asks of a record of actions that leaves the endpoint polled or not, with this many transfers
started and not ended. -/
structure Ledger (actions : List HostAction) (polled : Bool) (outstanding : Nat) : Prop where
  recorded : pollingAfter actions = polled
  quiet : QuietReports actions
  whole : ∀ a ∈ actions, a.reportsComplete = true
  once : actions.countP HostAction.startsTransfer = actions.countP HostAction.endsTransfer + outstanding

/-- The action moves no polling and ends no transfer. -/
def HostAction.isAside : HostAction → Bool
  | .startPolling _ _ => false
  | .stopPolling => false
  | .report (.completed _) => false
  | .report (.transferFailed _) => false
  | _ => true

/-- An action aside is nothing to any clause of the invariant. -/
theorem HostAction.isAside_spec {a : HostAction} (h : a.isAside = true) :
    (∀ polled, a.pollsAfter polled = polled) ∧ a.endsTransfer = false ∧ a.startsTransfer = false ∧
      a.reportsComplete = true := by
  cases a with
  | report r =>
    cases r with
    | completed r => cases h
    | transferFailed e => cases h
    | _ => exact ⟨fun _ => rfl, rfl, rfl, rfl⟩
  | startPolling w b => cases h
  | stopPolling => cases h
  | _ => exact ⟨fun _ => rfl, rfl, rfl, rfl⟩

namespace Ledger

variable {actions : List HostAction} {polled : Bool} {n : Nat}

/-- An action is added: an end of a transfer needs polling stopped, a reported Reading is complete, and starts and ends
are counted. -/
theorem append {a : HostAction} {m : Nat} (h : Ledger actions polled n)
    (hquiet : a.endsTransfer = true → polled = false) (hwhole : a.reportsComplete = true)
    (hcount : n + (if a.startsTransfer then 1 else 0) = m + if a.endsTransfer then 1 else 0) :
    Ledger (actions ++ [a]) (a.pollsAfter polled) m where
  recorded := by rw [pollingAfter_append, h.recorded]
  quiet := h.quiet.append fun hends => h.recorded.trans (hquiet hends)
  whole := List.forall_mem_append.2 ⟨h.whole, List.forall_mem_singleton.2 hwhole⟩
  once := by
    have honce := h.once
    rw [List.countP_append, List.countP_append, List.countP_singleton, List.countP_singleton]
    omega

theorem aside {a : HostAction} (h : Ledger actions polled n) (ha : a.isAside = true) :
    Ledger (actions ++ [a]) polled n := by
  obtain ⟨hpolls, hends, hstarts, hwhole⟩ := HostAction.isAside_spec ha
  have hadded : Ledger (actions ++ [a]) (a.pollsAfter polled) n :=
    h.append (by simp [hends]) hwhole (by simp [hends, hstarts])
  rwa [hpolls] at hadded

theorem start (h : Ledger actions polled 0) (window buffer : Nat) :
    Ledger (actions ++ [.startPolling window buffer]) true 1 :=
  h.append nofun rfl rfl

theorem stop (h : Ledger actions polled n) : Ledger (actions ++ [.stopPolling]) false n :=
  h.append nofun rfl rfl

/-- A transfer ends with its error once polling is stopped (R71). -/
theorem fail (h : Ledger actions false 1) (e : ErrorKind) :
    Ledger (actions ++ [.report (.transferFailed e)]) false 0 :=
  h.append (fun _ => rfl) rfl rfl

/-- A transfer ends with a complete Reading once polling is stopped (R64, R71). -/
theorem complete (h : Ledger actions false 1) {r : Reading} (hr : r.complete = true) :
    Ledger (actions ++ [.report (.completed r)]) false 0 :=
  h.append (fun _ => rfl) hr rfl

end Ledger

end Sys2Proof.Machine
end

section
/-! PROOF. Every step keeps the invariant (R64, R70, R71, R92), operation by operation. -/

namespace Sys2Proof.Machine

/-- The request whose response the host waits for (R75). -/
def HostPhase.awaited : HostPhase → Option Request
  | .awaitDecrypt raw => some ⟨.decrypt, raw⟩
  | .awaitVerdict d => some ⟨.validate, d⟩
  | _ => none

namespace State

variable {s t : State}

theorem Inv.ledger (h : s.Inv) : Ledger s.actions s.polling (if s.phase = .idle then 0 else 1) :=
  ⟨h.recorded, h.quiet, h.whole, h.once⟩

theorem Inv.awaits (h : s.Inv) {r : Request} (hr : s.phase.awaited = some r) : s.Waits r := by
  cases hphase : s.phase with
  | awaitDecrypt raw =>
    obtain rfl : _ = r := by simpa [HostPhase.awaited, hphase] using hr
    exact h.decrypting raw hphase
  | awaitVerdict d =>
    obtain rfl : _ = r := by simpa [HostPhase.awaited, hphase] using hr
    exact h.validating d hphase
  | _ => simp [HostPhase.awaited, hphase] at hr

theorem Inv.polling_eq_false (h : s.Inv) (hidle : s.phase = .idle) : s.polling = false :=
  Bool.eq_false_iff.2 fun hpolling => h.polls.1 hpolling hidle

/-- The invariant, with its clauses about the record and about the awaited request in one each. -/
theorem inv_of_ledger (hpolls : s.polling = true ↔ s.phase ≠ .idle)
    (hledger : Ledger s.actions s.polling (if s.phase = .idle then 0 else 1))
    (hheld : s.phase ≠ .idle → s.session.isSome = true) (hanswered : ∀ x ∈ s.transactions, x.answered)
    (hawaits : ∀ r, s.phase.awaited = some r → s.Waits r) : s.Inv where
  polls := hpolls
  recorded := hledger.recorded
  quiet := hledger.quiet
  whole := hledger.whole
  once := hledger.once
  held := hheld
  answered := hanswered
  decrypting raw hphase := hawaits _ (by rw [hphase]; rfl)
  validating d hphase := hawaits _ (by rw [hphase]; rfl)

/-- With no transfer outstanding, polling is off, every started transfer has ended and the records are right. -/
theorem inv_of_idle (hidle : s.phase = .idle) (hpolling : s.polling = false) (hledger : Ledger s.actions false 0)
    (hanswered : ∀ x ∈ s.transactions, x.answered) : s.Inv :=
  inv_of_ledger (by simp [hidle, hpolling]) (by simpa [hidle, hpolling] using hledger) (absurd hidle) hanswered
    (by simp [hidle, HostPhase.awaited])

/-- What leaves the transfer, the session and the actions as they are keeps the invariant, if the transactions and the
awaited request are right. -/
theorem Inv.of_same_transfer (h : s.Inv) (hactions : t.actions = s.actions) (hpolling : t.polling = s.polling)
    (hsession : t.session = s.session) (hphase : t.phase = .idle ↔ s.phase = .idle)
    (hanswered : ∀ x ∈ t.transactions, x.answered) (hawaits : ∀ r, t.phase.awaited = some r → t.Waits r) : t.Inv := by
  refine inv_of_ledger ?_ ?_ ?_ hanswered hawaits
  · simpa only [hpolling, ne_eq, hphase] using h.polls
  · simpa only [hactions, hpolling, hphase] using h.ledger
  · simpa only [hsession, ne_eq, hphase] using h.held

/-! The core and the consumer -/

theorem Inv.takeReset (h : s.Inv) : s.takeReset.Inv := by
  refine h.of_same_transfer rfl rfl rfl Iff.rfl h.answered fun r hr => ?_
  rcases h.awaits hr with ⟨_, hunanswered⟩ | ⟨_, hreceived⟩
  · exact .inr ⟨rfl, .inl hunanswered⟩
  · exact .inr ⟨rfl, hreceived⟩

/-- The answer to the request at the port is the one a waiting host waits for (R92). -/
theorem Inv.respond (h : s.Inv) {w : BitVec 65} (hport : s.port = some w) :
    (State.respond (decodeRequest w) (answer (decodeRequest w)) { s with port := none }).Inv := by
  refine h.of_same_transfer rfl rfl rfl Iff.rfl ?_ fun r hr => ?_
  · exact List.forall_mem_append.2 ⟨h.answered, List.forall_mem_singleton.2 rfl⟩
  · rcases h.awaits hr with ⟨hrequest, _⟩ | ⟨hfree, _⟩
    · obtain rfl : w = encodeRequest r := Option.some.inj (hport.symm.trans hrequest)
      exact .inr ⟨rfl, .inr (by rw [respond_received, decodeRequest_encodeRequest])⟩
    · cases hport.symm.trans hfree

/-- The error entry ends the outstanding transfer, if there is one, after polling is stopped (R71). -/
theorem Inv.failTransfer (h : s.Inv) (e : ErrorKind) : (s.failTransfer e).Inv := by
  refine inv_of_idle rfl rfl ?_ h.answered
  rw [failTransfer_actions]
  have hledger := h.ledger
  split at hledger
  next hidle => rw [if_pos hidle]; exact hledger.stop.aside rfl
  next hactive => rw [if_neg hactive]; exact hledger.stop.fail e

theorem Inv.consume (h : s.Inv) (d : Frame) (effect : Reading → Reading) : (consume d effect s).Inv := by
  rcases consume_cases d effect s with hvalid | hinvalid
  · rw [hvalid]
    exact h.of_same_transfer rfl rfl rfl Iff.rfl h.answered fun _ hr => h.awaits hr
  · rw [hinvalid]
    exact h.failTransfer _

/-! The application's calls -/

theorem Inv.act (h : s.Inv) (a : HostAction) (ha : a.isAside = true) : (s.act a).Inv :=
  inv_of_ledger h.polls (h.ledger.aside ha) h.held h.answered fun _ hr => h.awaits hr

/-- Without a transfer the session is free to change (R74). -/
theorem Inv.withSession (h : s.Inv) (hidle : s.phase = .idle) (session : Option Session) :
    ({ s with session := session } : State).Inv :=
  inv_of_ledger h.polls h.ledger (absurd hidle) h.answered fun _ hr => h.awaits hr

theorem Inv.connect (h : s.Inv) (hidle : s.phase = .idle) (ids : UsbIds) (answers : ConnectAnswers) :
    (connect ids answers s).Inv := by
  simp only [Machine.connect]
  have hlocated := h.act (.locateDevice ids) rfl
  split
  · exact hlocated.act _ rfl
  have hopened := hlocated.act .openDevice rfl
  split
  · exact hopened.act _ rfl
  have hcontrolled := (hopened.act (.selectInterface 0) rfl).act (.controlTransfer Config.handshake) rfl
  split
  · exact hcontrolled.act _ rfl
  · have hbound := (hcontrolled.act .claimInterface rfl).act (.bindEndpoint 0) rfl
    exact (hbound.act (.report .connected) rfl).withSession (by simpa using hidle) _

theorem Inv.disconnect (h : s.Inv) (hidle : s.phase = .idle) (releaseOk closeOk : Bool) :
    (disconnect releaseOk closeOk s).Inv :=
  have hclosed := (h.act .releaseInterface rfl).act .closeDevice rfl
  (hclosed.act (.report (.disconnected releaseOk closeOk)) rfl).withSession hidle none

/-- A transfer starts from no outstanding one, and polling starts with it (R74). -/
theorem Inv.beginTransfer (h : s.Inv) (hidle : s.phase = .idle) (hsession : s.session.isSome = true) :
    s.beginTransfer.Inv := by
  have hledger := h.ledger
  rw [if_pos hidle] at hledger
  exact inv_of_ledger (by simp) ((hledger.aside rfl).start _ _) (fun _ => hsession) h.answered nofun

/-- A transfer ends with a complete Reading, after polling is stopped (R64, R71). -/
theorem Inv.finishTransfer (h : s.Inv) (hactive : s.phase ≠ .idle) (hcomplete : s.reading.complete = true) :
    s.finishTransfer.Inv := by
  have hledger := h.ledger
  rw [if_neg hactive] at hledger
  exact inv_of_idle rfl rfl (hledger.stop.complete hcomplete) h.answered

end State

/-! The host -/

section Host

variable {s t : State}

/-- A host that awaits nothing keeps the invariant when its request is presented or its inputs move. -/
theorem State.Inv.of_not_awaiting (h : s.Inv) (hactions : t.actions = s.actions) (hpolling : t.polling = s.polling)
    (hsession : t.session = s.session) (hphase : t.phase = .idle ↔ s.phase = .idle)
    (htransactions : t.transactions = s.transactions) (hawaited : t.phase.awaited = none) : t.Inv :=
  h.of_same_transfer hactions hpolling hsession hphase (htransactions ▸ h.answered) (by simp [hawaited])

/-- A host that issues a request awaits that request, which is at the port (R26, R75). -/
theorem issue_keeps_inv (h : s.Inv) (hactive : s.phase ≠ .idle) {r : Request} {p : HostPhase}
    (hp : p.awaited = some r) (hissue : issue r p s = .next t) : t.Inv := by
  obtain ⟨_, rfl⟩ := (present_next_iff _ _ _).1 hissue
  have hstays : p ≠ .idle := by rintro rfl; cases hp
  refine h.of_same_transfer rfl rfl rfl (iff_of_false hstays hactive) h.answered fun r' hr' => ?_
  obtain rfl : r = r' := Option.some.inj (hp.symm.trans hr')
  exact .inl ⟨rfl, rfl⟩

theorem acceptRaw_keeps_inv (h : s.Inv) (hphase : s.phase = .polling) {bytes : List Byte}
    (haccept : acceptRaw bytes s = .next t) : t.Inv := by
  rw [acceptRaw] at haccept
  split at haccept
  · exact issue_keeps_inv h (by simp [hphase]) rfl haccept
  · cases haccept

/-- Every call is made without an outstanding transfer: the others are refused, and an outstanding transfer has a
session, with which `connect` is refused (R76, log 13). -/
theorem takeCall_keeps_inv (h : s.Inv) {c : Call} (hcall : takeCall c s = .next t) : t.Inv := by
  cases c with
  | connect ids answers =>
    simp only [takeCall] at hcall
    split at hcall
    next => cases hcall
    next hsession =>
      obtain rfl := Host.Outcome.next.inj hcall
      exact h.connect (not_not.1 (mt h.held hsession)) _ _
  | transfer =>
    simp only [takeCall] at hcall
    split_ifs at hcall with hidle hsession
    obtain rfl := Host.Outcome.next.inj hcall
    exact h.beginTransfer (not_not.1 hidle) (by simpa [Option.isSome_iff_ne_none] using hsession)
  | disconnect releaseOk closeOk =>
    simp only [takeCall] at hcall
    split_ifs at hcall with hidle hsession
    obtain rfl := Host.Outcome.next.inj hcall
    exact h.disconnect (not_not.1 hidle) _ _

theorem takeInput_keeps_inv (h : s.Inv) (hawaited : s.phase.awaited = none) {input : Input}
    (htake : takeInput input s = .next t) : t.Inv := by
  cases input with
  | request word =>
    obtain ⟨_, rfl⟩ := (present_next_iff _ _ _).1 htake
    exact h.of_not_awaiting rfl rfl rfl Iff.rfl rfl hawaited
  | call c => exact takeCall_keeps_inv h htake
  | frame bytes =>
    simp only [takeInput] at htake
    split at htake
    next hpolling => exact acceptRaw_keeps_inv h hpolling htake
    next => exact Host.Outcome.next.inj htake ▸ h
  | initialData bytes =>
    simp only [takeInput] at htake
    split at htake
    next hpolling => exact acceptRaw_keeps_inv h hpolling.1 htake
    next => exact Host.Outcome.next.inj htake ▸ h
  | transportError =>
    simp only [takeInput] at htake
    split at htake
    next => exact Host.Outcome.next.inj htake ▸ h.failTransfer _
    next => exact Host.Outcome.next.inj htake ▸ h

theorem takeNextInput_keeps_inv (h : s.Inv) (hawaited : s.phase.awaited = none) (htake : takeNextInput s = .next t) :
    t.Inv := by
  rw [takeNextInput] at htake
  split at htake
  next => exact Host.Outcome.next.inj htake ▸ h
  next input rest hinputs =>
    have hrest : ({ s with inputs := rest } : State).Inv := h.of_not_awaiting rfl rfl rfl Iff.rfl rfl hawaited
    exact takeInput_keeps_inv hrest hawaited htake

/-- The host keeps the invariant in every phase (R75). -/
theorem hostStep_keeps_inv (h : s.Inv) (hstep : hostStep s = .next t) : t.Inv := by
  cases hphase : s.phase with
  | idle =>
    simp only [hostStep, hphase] at hstep
    exact takeNextInput_keeps_inv h (by rw [hphase]; rfl) hstep
  | polling =>
    simp only [hostStep, hphase] at hstep
    exact takeNextInput_keeps_inv h (by rw [hphase]; rfl) hstep
  | awaitDecrypt raw =>
    have hactive : s.phase ≠ .idle := by simp [hphase]
    simp only [hostStep, hphase] at hstep
    split at hstep
    next => exact issue_keeps_inv h hactive rfl hstep
    next =>
      split at hstep
      next => cases hstep
      next => exact issue_keeps_inv h hactive rfl hstep
  | awaitVerdict d =>
    have hactive : s.phase ≠ .idle := by simp [hphase]
    simp only [hostStep, hphase] at hstep
    split at hstep
    next => exact issue_keeps_inv h hactive rfl hstep
    next =>
      split at hstep
      next => cases hstep
      next =>
        obtain rfl := Host.Outcome.next.inj hstep
        exact h.of_not_awaiting rfl rfl rfl (iff_of_false nofun hactive) rfl rfl
      next => exact Host.Outcome.next.inj hstep ▸ h.failTransfer _
  | ingesting =>
    have hactive : s.phase ≠ .idle := by simp [hphase]
    simp only [hostStep, hphase] at hstep
    split at hstep
    next hcomplete => exact Host.Outcome.next.inj hstep ▸ h.finishTransfer hactive hcomplete
    next =>
      obtain rfl := Host.Outcome.next.inj hstep
      exact h.of_not_awaiting rfl rfl rfl (iff_of_false nofun hactive) rfl rfl

end Host

/-- Settles O57: each of the four things a step can be keeps the invariant. -/
theorem everyStepKeepsTheInvariant : Obligations.EveryStepKeepsTheInvariant := by
  intro s t h hstep
  rcases step_cases s with ⟨_, hreset⟩ | ⟨w, hport, hcore⟩ | ⟨w, _, _, hconsumer⟩ | ⟨_, hhost⟩
  · exact Host.Outcome.next.inj (hreset.symm.trans hstep) ▸ h.takeReset
  · exact Host.Outcome.next.inj (hcore.symm.trans hstep) ▸ h.respond hport
  · have htaken : ({ s with inbox := none } : State).Inv :=
      h.of_same_transfer rfl rfl rfl Iff.rfl h.answered fun _ hr => h.awaits hr
    exact Host.Outcome.next.inj (hconsumer.symm.trans hstep) ▸ htaken.consume _ _
  · exact hostStep_keeps_inv h (hhost.symm.trans hstep)

end Sys2Proof.Machine
end

section
/-! PROOF. The consumer's two context rows and its step (42_context_frame_consumer.md R59 to R66). -/

namespace Sys2Proof.Machine

/-- The measurement as a number: the lower index is the more significant byte (R60). -/
theorem measurement_toNat (valueHi valueLo : Byte) :
    (measurement valueHi valueLo).toNat = 256 * valueHi.toNat + valueLo.toNat := by
  rw [measurement, append_byte_toNat, Nat.mul_comm]

/-- The temperature is within half a hundredth of the exact quantity, for every tie rule (R61, log 9). -/
theorem temperatureOf_near (value : BitVec 16) :
    625 * (value.toNat : Int) - 2731500 ≤ 100 * temperatureOf value + 50 ∧
      100 * temperatureOf value ≤ 625 * (value.toNat : Int) - 2731500 + 50 := by
  rw [temperatureOf]
  split_ifs <;> omega

/-- Settles O31: within half a hundredth of the exact quantity there is one whole number of hundredths for the first
three values, and at the tie there are two. -/
theorem workedTemperaturesRoundAsTheSpecSays : Obligations.WorkedTemperaturesRoundAsTheSpecSays := by
  have h4383 := temperatureOf_near 4383
  have h4720 := temperatureOf_near 4720
  have h0 := temperatureOf_near 0
  have h4370 := temperatureOf_near 4370
  simp only [BitVec.reduceToNat] at h4383 h4720 h0 h4370
  unfold Obligations.WorkedTemperaturesRoundAsTheSpecSays
  omega

section Reading

variable {r : Reading} (v : BitVec 16)

theorem Reading.ingestTemp_of_incomplete (h : r.complete = false) :
    r.ingestTemp v = { r with temperatureC := some (temperatureOf v) } := by
  simp [Reading.ingestTemp, h]

theorem Reading.ingestCo2_of_incomplete (h : r.complete = false) : r.ingestCo2 v = { r with co2 := some v } := by
  simp [Reading.ingestCo2, h]

theorem Reading.ingestTemp_of_complete (h : r.complete = true) : r.ingestTemp v = r := if_pos h

theorem Reading.ingestCo2_of_complete (h : r.complete = true) : r.ingestCo2 v = r := if_pos h

end Reading

/-- Complete is both fields set (R59). -/
theorem Reading.complete_iff (r : Reading) : r.complete = true ↔ r.temperatureC.isSome ∧ r.co2.isSome :=
  Bool.and_eq_true_iff

section WellFormed

variable {b : FrameBody} (s : State)

/-- A well-formed temperature frame is ingested (R61, R65). -/
theorem exec_frameTemp_of_wellFormed (h : (Instr.frameTemp b).wellFormed = true) :
    exec (.frameTemp b) s =
      .next { s with reading := s.reading.ingestTemp (measurement b.valueHi b.valueLo) } :=
  congrArg _ (consume_valid ((validate_toFrame _ b).trans h) _ s)

/-- A well-formed CO2 frame is ingested (R62, R65). -/
theorem exec_frameCo2_of_wellFormed (h : (Instr.frameCo2 b).wellFormed = true) :
    exec (.frameCo2 b) s =
      .next { s with reading := s.reading.ingestCo2 (measurement b.valueHi b.valueLo) } :=
  congrArg _ (consume_valid ((validate_toFrame _ b).trans h) _ s)

end WellFormed

/-- Settles O30: the hundredths are `temperatureOf` of the measurement. -/
theorem temperatureFrameSetsTheRoundedTemperature : Obligations.TemperatureFrameSetsTheRoundedTemperature := by
  intro b s hwell hincomplete
  refine ⟨temperatureOf (measurement b.valueHi b.valueLo), ?_, ?_⟩
  · rw [exec_frameTemp_of_wellFormed s hwell, Reading.ingestTemp_of_incomplete _ hincomplete]
  · have hnear := temperatureOf_near (measurement b.valueHi b.valueLo)
    rw [measurement_toNat] at hnear
    exact_mod_cast hnear

/-- Settles O32: the measurement is the 16-bit number of the two bytes. -/
theorem co2FrameSetsTheConcentration : Obligations.Co2FrameSetsTheConcentration := by
  intro b s hwell hincomplete
  rw [exec_frameCo2_of_wellFormed s hwell, Reading.ingestCo2_of_incomplete _ hincomplete, ← measurement_toNat,
    BitVec.ofNat_toNat, BitVec.setWidth_eq]

/-- Settles O33. -/
theorem completeReadingAcceptsNoFurtherFrames : Obligations.CompleteReadingAcceptsNoFurtherFrames := by
  intro b s hcomplete
  refine ⟨fun hwell => ?_, fun hwell => ?_⟩
  · rw [exec_frameTemp_of_wellFormed s hwell, Reading.ingestTemp_of_complete _ hcomplete]
  · rw [exec_frameCo2_of_wellFormed s hwell, Reading.ingestCo2_of_complete _ hcomplete]

/-- A step on a valid frame before the consumer takes the frame and ingests it (R66). -/
theorem step_valid_frame {s : State} {f : Frame} (hreset : s.resetPending = false) (hport : s.port = none)
    (hinbox : s.inbox = some (packFrame f)) (hvalid : validate f = true) :
    step s = .next { s with inbox := none, reading := ingest s.reading f } := by
  rw [step_inbox hreset hport hinbox, unpackFrame_packFrame, consume_valid hvalid]

/-- Settles O35. -/
theorem unlistedOpCodeIsIgnored : Obligations.UnlistedOpCodeIsIgnored := by
  intro s f hreset hport hinbox hvalid htemp hco2
  rw [step_valid_frame hreset hport hinbox hvalid, ingest_unlisted htemp hco2]

/-- A complete Reading takes no frame of any op byte (R64). -/
theorem ingest_of_complete {r : Reading} (h : r.complete = true) (f : Frame) : ingest r f = r := by
  by_cases htemp : f.a0 = Config.OP_TEMP
  · rw [ingest_temp htemp, Reading.ingestTemp_of_complete _ h]
  · by_cases hco2 : f.a0 = Config.OP_CO2
    · rw [ingest_co2 hco2, Reading.ingestCo2_of_complete _ h]
    · exact ingest_unlisted htemp hco2 r

/-- Settles O36: the Reading is complete, or the op byte decides. -/
theorem consumerStepIsIngest : Obligations.ConsumerStepIsIngest := by
  intro s f hreset hport hinbox hvalid
  rw [step_valid_frame hreset hport hinbox hvalid]
  congr 2
  split
  next hset => exact ingest_of_complete ((Reading.complete_iff _).2 hset) f
  next hset =>
    have hincomplete : s.reading.complete = false := Bool.eq_false_iff.2 (mt (Reading.complete_iff _).1 hset)
    split
    next htemp => rw [ingest_temp htemp, Reading.ingestTemp_of_incomplete _ hincomplete]; rfl
    next htemp =>
      split
      next hco2 => rw [ingest_co2 hco2, Reading.ingestCo2_of_incomplete _ hincomplete]; rfl
      next hco2 => exact ingest_unlisted htemp hco2 _

/-- A frame leaves a field set exactly if it was set or the frame is one of the field's op byte: a complete Reading,
which takes no frame, has both set (R61, R62, R64). -/
theorem ingest_isSome (r : Reading) (f : Frame) :
    ((ingest r f).temperatureC.isSome ↔ r.temperatureC.isSome ∨ f.a0 = Config.OP_TEMP) ∧
    ((ingest r f).co2.isSome ↔ r.co2.isSome ∨ f.a0 = Config.OP_CO2) := by
  have hother : Config.OP_TEMP ≠ Config.OP_CO2 := by decide
  rcases Bool.eq_false_or_eq_true r.complete with hcomplete | hincomplete
  · obtain ⟨htemperature, hconcentration⟩ := (Reading.complete_iff r).1 hcomplete
    simp [ingest_of_complete hcomplete, htemperature, hconcentration]
  by_cases htemp : f.a0 = Config.OP_TEMP
  · simp [ingest_temp htemp, Reading.ingestTemp_of_incomplete _ hincomplete, htemp, hother]
  by_cases hco2 : f.a0 = Config.OP_CO2
  · simp [ingest_co2 hco2, Reading.ingestCo2_of_incomplete _ hincomplete, hco2, hother.symm]
  · simp [ingest_unlisted htemp hco2, htemp, hco2]

/-- What each frame of some kind brings about, and no frame undoes, holds after a list of frames exactly if it held
before or the list holds a frame of the kind. -/
theorem foldl_ingest_iff {P : Reading → Prop} {Q : Frame → Prop} (h : ∀ r f, P (ingest r f) ↔ P r ∨ Q f)
    (frames : List Frame) (r : Reading) : P (frames.foldl ingest r) ↔ P r ∨ ∃ f ∈ frames, Q f := by
  induction frames generalizing r with
  | nil => simp
  | cons f fs ih => rw [List.foldl_cons, ih, h, or_assoc, List.exists_mem_cons_iff]

/-- Settles O37: each field is set exactly if a frame of its op byte is in the list, since both are unset at first. -/
theorem readingCompletesExactlyWithBothOpCodes : Obligations.ReadingCompletesExactlyWithBothOpCodes := by
  intro frames
  have htemp := foldl_ingest_iff (P := (·.temperatureC.isSome)) (fun r f => (ingest_isSome r f).1) frames .empty
  have hco2 := foldl_ingest_iff (P := (·.co2.isSome)) (fun r f => (ingest_isSome r f).2) frames .empty
  rw [Reading.complete_iff, htemp, hco2]
  exact and_congr (or_iff_right Bool.false_ne_true) (or_iff_right Bool.false_ne_true)

/-- Settles O38: the second frame meets a Reading with one field set, which is not complete. -/
theorem orderOfTheTwoOpCodesDoesNotMatter : Obligations.OrderOfTheTwoOpCodesDoesNotMatter := by
  intro f g hf hg
  rw [ingest_temp hf, ingest_co2 hg, ingest_co2 hg, ingest_temp hf]
  exact ⟨rfl, rfl⟩

end Sys2Proof.Machine
end

section
/-! PROOF. A transfer starts from an empty Reading (R59, R74, R76). -/

namespace Sys2Proof.Machine

/-- The start of a transfer as one update, with the numbers of R74. -/
theorem State.beginTransfer_eq (s : State) :
    s.beginTransfer = { s with
      polling := true
      phase := .polling
      reading := ⟨none, none⟩
      actions := s.actions ++ [.initialTransfer 8, .startPolling 8 64] } := by
  simp [State.beginTransfer, State.act, Reading.empty, Config.frameSize, Config.pollWindow, Config.transferBuffer]

/-- Settles O46: the idle or polling host takes the call, which is refused without a session or during a transfer. -/
theorem transferStartsFromAnEmptyReading : Obligations.TransferStartsFromAnEmptyReading := by
  intro s rest hquiet hinputs
  refine ⟨fun hphase hsession => ?_, fun hphase hsession => ?_, fun hphase => ?_⟩
  · have hopen : s.session.isNone = false := by rw [← Option.not_isSome, hsession]; rfl
    rw [step_idle hquiet hphase hinputs]
    simp [takeInput, takeCall, hphase, hopen, State.beginTransfer_eq]
  · rw [step_idle hquiet hphase hinputs]
    simp [takeInput, takeCall, hphase, hsession]
  · rw [step_polling hquiet hphase hinputs]
    simp [takeInput, takeCall, hphase]

end Sys2Proof.Machine
end

section
/-! PROOF. The machine's steps on a raw frame come to `OnFrame` (60_exceptions.md R75). -/

namespace Sys2Proof.Machine

/-! `OnFrame`, outcome by outcome -/

section OnFrame

variable {r : Reading} {raw : Frame}

theorem onFrame_of_invalid (hvalid : validate (decrypt Config.KEY raw) = false) :
    onFrame r raw = .failed .checksumError := by
  simp [onFrame, hvalid]

theorem onFrame_of_complete (hvalid : validate (decrypt Config.KEY raw) = true)
    (hcomplete : (ingest r (decrypt Config.KEY raw)).complete = true) :
    onFrame r raw = .complete (ingest r (decrypt Config.KEY raw)) := by
  simp [onFrame, hvalid, hcomplete]

theorem onFrame_of_incomplete (hvalid : validate (decrypt Config.KEY raw) = true)
    (hincomplete : (ingest r (decrypt Config.KEY raw)).complete = false) :
    onFrame r raw = .goOn (ingest r (decrypt Config.KEY raw)) := by
  simp [onFrame, hvalid, hincomplete]

end OnFrame

/-- Settles O55. -/
theorem onFrameFollowsTheVerdictAndTheReading : Obligations.OnFrameFollowsTheVerdictAndTheReading :=
  fun _ _ => ⟨onFrame_of_invalid, fun hvalid => ⟨onFrame_of_complete hvalid, onFrame_of_incomplete hvalid⟩⟩

/-! What the host does with the responses it waits for -/

section HostStep

variable {s : State}

/-- A host that holds the decoded frame asks for its verdict. -/
theorem hostStep_decrypted {raw d : Frame} (hphase : s.phase = .awaitDecrypt raw)
    (hreceived : s.received = some (.frame d)) : hostStep s = issue ⟨.validate, d⟩ (.awaitVerdict d) s := by
  simp only [hostStep, hphase, hreceived, Response.dout]

/-- A host that holds verdict 1 gives the frame to the consumer. -/
theorem hostStep_verdict_one {d : Frame} (hphase : s.phase = .awaitVerdict d)
    (hreceived : s.received = some (.verdict true)) : hostStep s = .next { s.offer d with phase := .ingesting } := by
  simp only [hostStep, hphase, hreceived, Response.valid]

/-- Once the frame is ingested, a complete Reading ends the transfer. -/
theorem hostStep_ingested_complete (hphase : s.phase = .ingesting) (hcomplete : s.reading.complete = true) :
    hostStep s = .next s.finishTransfer := by
  simp only [hostStep, hphase, hcomplete, if_true]

/-- Once the frame is ingested, a Reading that is not complete waits for the next event. -/
theorem hostStep_ingested_incomplete (hphase : s.phase = .ingesting) (hincomplete : s.reading.complete = false) :
    hostStep s = .next { s with phase := .polling } := by
  simp [hostStep, hphase, hincomplete]

/-- A polling host asks the core to decrypt a raw frame. -/
theorem takeInput_frame (hphase : s.phase = .polling) (bytes : List Byte) :
    takeInput (.frame bytes) s = acceptRaw bytes s :=
  if_pos hphase

end HostStep

/-- The success of a transfer as one update: polling is stopped, then the Reading is reported (R71, R75). -/
theorem State.finishTransfer_eq (s : State) :
    s.finishTransfer = { s with
      polling := false
      phase := .idle
      actions := s.actions ++ [.stopPolling, .report (.completed s.reading)] } := by
  simp [State.finishTransfer, State.stopPolling, State.act]

/-- A run of one step ends where the step does. -/
theorem run_one {s t : State} (h : step s = .next t) : core.run 1 s = .next t :=
  run_succ (M := core) h 0

/-- A request that a host issues to the idle core is answered in the step after (R26, R75). -/
theorem run_issue {s t : State} {r : Request} {p : HostPhase} (hquiet : t.Quiescent) (hissue : step s = issue r p t)
    (k : Nat) : core.run (k + 2) s = core.run k { t.afterRequest r t.inputs with phase := p } := by
  obtain ⟨hreset, hport, hinbox⟩ := hquiet
  obtain ⟨u, hpresent, hstep⟩ := present_then_step (s := { t with phase := p }) hreset hport r
  have hasked : step s = .next u := hissue.trans hpresent
  have hanswer : step u = .next { t.afterRequest r t.inputs with phase := p } := by
    rw [hstep, State.afterRequest, hport]
  calc core.run (k + 2) s
    _ = core.run (k + 1) u := run_succ (M := core) hasked (k + 1)
    _ = core.run k { t.afterRequest r t.inputs with phase := p } := run_succ (M := core) hanswer k

/-- The state in which a polling host holds the verdict of a raw frame: two transactions more on record (R75). -/
def State.withVerdict (s : State) (raw : Frame) (rest : List Input) : State :=
  { s with
    inputs := rest
    phase := .awaitVerdict (decrypt Config.KEY raw)
    received := some (.verdict (validate (decrypt Config.KEY raw)))
    transactions := s.transactions ++
      [⟨⟨.decrypt, raw⟩, .frame (decrypt Config.KEY raw)⟩,
        ⟨⟨.validate, decrypt Config.KEY raw⟩, .verdict (validate (decrypt Config.KEY raw))⟩] }

section Run

variable {s : State} {raw : Frame} {rest : List Input}

theorem withVerdict_quiescent (hquiet : s.Quiescent) : (s.withVerdict raw rest).Quiescent := hquiet

/-- The verdict of a raw frame takes two requests, of two steps each. -/
theorem run_to_verdict (hquiet : s.Quiescent) (hphase : s.phase = .polling)
    (hinputs : s.inputs = .frame raw.toList :: rest) (k : Nat) :
    core.run (k + 4) s = core.run k (s.withVerdict raw rest) := by
  have hdecrypt : step s = issue ⟨.decrypt, raw⟩ (.awaitDecrypt raw) { s with inputs := rest } := by
    rw [step_polling hquiet hphase hinputs, takeInput_frame (s := { s with inputs := rest }) hphase, acceptRaw,
      frameOfBytes_toList]
  refine (run_issue (t := { s with inputs := rest }) hquiet hdecrypt (k + 2)).trans ?_
  have hholds {t : State} := hostStep_decrypted (s := t) (raw := raw) (d := decrypt Config.KEY raw)
  refine (run_issue ?_ ((step_quiescent ?_).trans (hholds rfl rfl)) k).trans ?_
  · exact hquiet
  · exact hquiet
  · simp [State.afterRequest, State.withVerdict, answer]

/-- On verdict 1 the frame is ingested in the two steps after (R65, R66). -/
theorem run_ingest {d : Frame} (hquiet : s.Quiescent) (hphase : s.phase = .awaitVerdict d)
    (hreceived : s.received = some (.verdict true)) (hvalid : validate d = true) (k : Nat) :
    core.run (k + 2) s = core.run k { s with phase := .ingesting, reading := ingest s.reading d } := by
  have hoffer : step s = .next { s.offer d with phase := .ingesting } :=
    (step_quiescent hquiet).trans (hostStep_verdict_one hphase hreceived)
  obtain ⟨hreset, hport, hinbox⟩ := hquiet
  have hingest := step_valid_frame (s := { s.offer d with phase := .ingesting }) hreset hport rfl hvalid
  have hemptied : ({ s.offer d with phase := .ingesting, inbox := none, reading := ingest s.reading d } : State) =
      { s with phase := .ingesting, reading := ingest s.reading d } := by
    rw [← hinbox]; rfl
  calc core.run (k + 2) s
    _ = core.run (k + 1) { s.offer d with phase := .ingesting } := run_succ (M := core) hoffer (k + 1)
    _ = core.run k { s with phase := .ingesting, reading := ingest s.reading d } :=
      run_succ (M := core) (hingest.trans (congrArg _ hemptied)) k

/-- On verdict 0 the host's next step is the error entry (R58, R69). -/
theorem run_invalid (hquiet : s.Quiescent) (hphase : s.phase = .polling)
    (hinputs : s.inputs = .frame raw.toList :: rest) (hvalid : validate (decrypt Config.KEY raw) = false) :
    core.run 5 s = .next ((s.withVerdict raw rest).failTransfer .checksumError) := by
  have hreceived : (s.withVerdict raw rest).received = some (.verdict false) := by rw [← hvalid]; rfl
  rw [run_to_verdict hquiet hphase hinputs 1]
  exact run_one ((step_quiescent (withVerdict_quiescent hquiet)).trans (hostStep_verdict_zero rfl hreceived))

/-- On verdict 1 the host's next step after the two of `run_ingest` asks whether the Reading is complete (R64). -/
theorem run_valid {t : State} (hquiet : s.Quiescent) (hphase : s.phase = .polling)
    (hinputs : s.inputs = .frame raw.toList :: rest) (hvalid : validate (decrypt Config.KEY raw) = true)
    (hasks : hostStep { s.withVerdict raw rest with
      phase := .ingesting, reading := ingest s.reading (decrypt Config.KEY raw) } = .next t) :
    core.run 7 s = .next t := by
  have hreceived : (s.withVerdict raw rest).received = some (.verdict true) := by rw [← hvalid]; rfl
  rw [run_to_verdict hquiet hphase hinputs 3, run_ingest (withVerdict_quiescent hquiet) rfl hreceived hvalid 1]
  refine run_one ((step_quiescent ?_).trans hasks)
  exact hquiet

end Run

/-- Settles O54: four steps bring the verdict; then the host takes the error entry, or the frame is ingested and the
host asks whether the Reading is complete. -/
theorem handlingAFrameComesToOnFrame : Obligations.HandlingAFrameComesToOnFrame := by
  intro s raw rest hquiet hphase hinputs d after
  cases hvalid : validate d with
  | false =>
    rw [onFrame_of_invalid hvalid]
    refine (run_invalid hquiet hphase hinputs hvalid).trans ?_
    rw [State.failTransfer_eq]
    rfl
  | true =>
    have hrun {t : State} := run_valid (t := t) hquiet hphase hinputs hvalid
    cases hcomplete : (ingest s.reading d).complete with
    | true =>
      rw [onFrame_of_complete hvalid hcomplete]
      refine (hrun (hostStep_ingested_complete rfl hcomplete)).trans ?_
      rw [State.finishTransfer_eq]
      rfl
    | false =>
      rw [onFrame_of_incomplete hvalid hcomplete]
      refine (hrun (hostStep_ingested_incomplete rfl hcomplete)).trans ?_
      rw [← hphase]
      rfl

end Sys2Proof.Machine
end

section
/-! PROOF. What a waiting host does with its inputs (60_exceptions.md R68, R71, R74, R75, R77). -/

namespace Sys2Proof.Machine

section Waiting

variable {s : State}

/-- With the core, the consumer and reset quiet, a host that is idle or polls takes its next input (R77). -/
theorem step_waiting (hquiet : s.Quiescent) (hphase : s.phase = .idle ∨ s.phase = .polling) :
    step s = takeNextInput s := by
  rw [step_quiescent hquiet]
  rcases hphase with hphase | hphase <;> simp only [hostStep, hphase]

/-- A polling host takes a transport error as the end of the transfer (R68). -/
theorem takeInput_transportError (hphase : s.phase = .polling) :
    takeInput .transportError s = .next (s.failTransfer .endpointTransferError) :=
  if_pos hphase

/-- A host that does not poll drops what the endpoint delivers (R75, log 12). -/
theorem takeInput_delivery_dropped (hphase : s.phase ≠ .polling) {input : Input}
    (hdelivery : ∃ bytes, input = .frame bytes ∨ input = .initialData bytes ∨ input = .transportError) :
    takeInput input s = .next s := by
  obtain ⟨bytes, rfl | rfl | rfl⟩ := hdelivery
  · exact if_neg hphase
  · exact if_neg fun h => hphase h.1
  · exact if_neg hphase

/-- A polling host takes initial data for a frame or drops it (U10, log 10). -/
theorem takeInput_initialData (hphase : s.phase = .polling) (bytes : List Byte) :
    takeInput (.initialData bytes) s = takeInput (.frame bytes) s ∨ takeInput (.initialData bytes) s = .next s := by
  by_cases hframe : Config.initialDataIsFrame = true
  · exact .inl ((if_pos ⟨hphase, hframe⟩).trans (takeInput_frame hphase bytes).symm)
  · exact .inr (if_neg fun h => hframe h.2)

end Waiting

/-- Settles O45. -/
theorem waitingMachineStaysAsItIs : Obligations.WaitingMachineStaysAsItIs := by
  intro s hquiet hphase hinputs
  rw [step_waiting hquiet hphase]
  simp only [takeNextInput, hinputs]

/-- Settles O50: a transfer is outstanding while the host polls, so the report is that transfer's failure. -/
theorem transportErrorEndsTheTransfer : Obligations.TransportErrorEndsTheTransfer := by
  intro s rest hquiet hphase hinputs
  have houtstanding : s.phase ≠ .idle := by simp [hphase]
  rw [step_polling hquiet hphase hinputs, takeInput_transportError (s := { s with inputs := rest }) hphase,
    State.failTransfer_eq, if_neg houtstanding]

/-- Settles O51: polling is off after the first stop, and the second leaves it off. -/
theorem stoppingThePollIsIdempotent : Obligations.StoppingThePollIsIdempotent :=
  fun s => ⟨s.stopPolling_polling, rfl⟩

/-- Settles O52. -/
theorem deliveriesOutsideATransferAreDropped : Obligations.DeliveriesOutsideATransferAreDropped := by
  intro s input rest hquiet hphase hinputs hdelivery
  have hidle : s.phase ≠ .polling := by simp [hphase]
  rw [step_idle hquiet hphase hinputs, takeInput_delivery_dropped (s := { s with inputs := rest }) hidle hdelivery]

/-- Settles O53: both steps are those of a polling host with one input, which it takes in one of two ways. -/
theorem initialDataIsHandledAsAFrameOrDropped : Obligations.InitialDataIsHandledAsAFrameOrDropped := by
  intro s raw rest hquiet hphase hinputs
  rw [step_polling hquiet hphase hinputs,
    step_polling (s := { s with inputs := .frame raw.toList :: rest }) hquiet hphase rfl]
  exact takeInput_initialData (s := { s with inputs := rest }) hphase raw.toList

end Sys2Proof.Machine
end

section
/-! PROOF. The session: connect and disconnect (60_exceptions.md R78, R79). -/

namespace Sys2Proof.Machine

section TakeCall

variable {s : State}

/-- `connect` is taken while there is no session (R79, log 13). -/
theorem takeCall_connect (hclosed : s.session = none) (ids : Option UsbIds) (answers : ConnectAnswers) :
    takeCall (.connect ids answers) s = .next (connect (ids.getD Config.defaultIds) answers s) := by
  simp [takeCall, hclosed]

/-- `transfer` is taken with a session and no transfer outstanding (R74, R76). -/
theorem takeCall_transfer (hidle : s.phase = .idle) (hopen : s.session.isSome = true) :
    takeCall .transfer s = .next s.beginTransfer := by
  simp [takeCall, hidle, Option.isNone_eq_false_iff.2 hopen]

/-- `disconnect` is taken with a session and no transfer outstanding (R76, R79). -/
theorem takeCall_disconnect (hidle : s.phase = .idle) (hopen : s.session.isSome = true) (releaseOk closeOk : Bool) :
    takeCall (.disconnect releaseOk closeOk) s = .next (disconnect releaseOk closeOk s) := by
  simp [takeCall, hidle, Option.isNone_eq_false_iff.2 hopen]

end TakeCall

/-- Settles O47: the call is taken, and `connect` goes as far as the transport's answers let it. -/
theorem connectFailsWhereTheTransportFails : Obligations.ConnectFailsWhereTheTransportFails := by
  intro s ids answers rest hquiet hphase hsession hinputs used handshake
  have hconnect : step s = .next (connect used answers { s with inputs := rest }) :=
    (step_idle hquiet hphase hinputs).trans (takeCall_connect (s := { s with inputs := rest }) hsession ids answers)
  have hhandshake : Config.handshake = handshake := rfl
  rw [hconnect]
  refine ⟨fun hdevice => ?_, fun hdevice hinterface => ?_, fun hdevice hinterface hcontrol => ?_,
    fun hdevice hinterface hcontrol => ?_⟩
  · simp [connect, State.act, hdevice]
  · simp [connect, State.act, hdevice, hinterface]
  · simp [connect, State.act, hdevice, hinterface, hcontrol, hhandshake]
  · simp [connect, State.act, hdevice, hinterface, hcontrol, hhandshake]

/-- Settles O48: the call is taken, since there is a session and no transfer. -/
theorem disconnectAttemptsBothSteps : Obligations.DisconnectAttemptsBothSteps := by
  intro s releaseOk closeOk rest hquiet hphase hsession hinputs
  have hdisconnect : step s = .next (disconnect releaseOk closeOk { s with inputs := rest }) :=
    (step_idle hquiet hphase hinputs).trans
      (takeCall_disconnect (s := { s with inputs := rest }) hphase hsession releaseOk closeOk)
  rw [hdisconnect]
  simp [disconnect, State.act]

end Sys2Proof.Machine
end

section
/-! PROOF. While the outside keeps its side, every step answers a next state (60_exceptions.md R67, R80). -/

namespace Sys2Proof.Machine

/-- A delivery of eight bytes is a frame (R21). -/
theorem exists_frame_of_length {bytes : List Byte} (h : bytes.length = Config.frameSize) :
    ∃ f : Frame, bytes = f.toList := by
  match bytes, h with
  | [b0, b1, b2, b3, b4, b5, b6, b7], _ => exact ⟨⟨b0, b1, b2, b3, b4, b5, b6, b7⟩, rfl⟩

section Host

variable {s : State}

/-- A raw frame of eight bytes is taken to the idle core. -/
theorem acceptRaw_next (hport : s.port = none) {bytes : List Byte} (h : bytes.length = Config.frameSize) :
    ∃ t, acceptRaw bytes s = .next t := by
  obtain ⟨raw, rfl⟩ := exists_frame_of_length h
  exact ⟨_, acceptRaw_toList hport raw⟩

/-- A call made in its place is not refused (R76, log 13). -/
theorem takeCall_next {c : Call} (hlegal : (Input.call c).Legal s) : ∃ t, takeCall c s = .next t := by
  cases c with
  | connect ids answers => exact ⟨_, takeCall_connect hlegal ids answers⟩
  | transfer =>
    obtain ⟨hidle, hopen⟩ := hlegal
    exact ⟨_, takeCall_transfer hidle hopen⟩
  | disconnect releaseOk closeOk =>
    obtain ⟨hidle, hopen⟩ := hlegal
    exact ⟨_, takeCall_disconnect hidle hopen releaseOk closeOk⟩

/-- A host with an idle core takes every legal input. -/
theorem takeInput_next (hport : s.port = none) {input : Input} (hlegal : input.Legal s) :
    ∃ t, takeInput input s = .next t := by
  cases input with
  | request word => exact ⟨_, (present_next_iff _ _ _).2 ⟨hport, rfl⟩⟩
  | call c => exact takeCall_next hlegal
  | frame bytes =>
    simp only [takeInput]
    split
    · exact acceptRaw_next hport hlegal
    · exact ⟨_, rfl⟩
  | initialData bytes =>
    simp only [takeInput]
    split
    · exact acceptRaw_next hport hlegal
    · exact ⟨_, rfl⟩
  | transportError =>
    simp only [takeInput]
    split <;> exact ⟨_, rfl⟩

theorem takeNextInput_next (hport : s.port = none) (hlegal : ∀ input rest, s.inputs = input :: rest → input.Legal s) :
    ∃ t, takeNextInput s = .next t := by
  rw [takeNextInput]
  split
  next => exact ⟨s, rfl⟩
  next input rest hinputs =>
    have hnow : input.Legal { s with inputs := rest } := hlegal input rest hinputs
    exact takeInput_next (s := { s with inputs := rest }) hport hnow

/-- Of the request that an idle core leaves the host waiting for, the host holds the answer or nothing (R84, R92). -/
theorem State.Inv.received_of_awaited (h : s.Inv) (hport : s.port = none) {r : Request}
    (hr : s.phase.awaited = some r) : s.received = none ∨ s.received = some (answer r) := by
  rcases h.awaits hr with ⟨hbusy, _⟩ | ⟨_, hreceived⟩
  · cases hport.symm.trans hbusy
  · exact hreceived

/-- In every phase the host has a next action: a response it holds is of the kind it asked for (R33). -/
theorem hostStep_next (h : s.Inv) (hport : s.port = none)
    (hlegal : ∀ input rest, s.inputs = input :: rest → input.Legal s) : ∃ t, hostStep s = .next t := by
  cases hphase : s.phase with
  | idle =>
    simp only [hostStep, hphase]
    exact takeNextInput_next hport hlegal
  | polling =>
    simp only [hostStep, hphase]
    exact takeNextInput_next hport hlegal
  | awaitDecrypt raw =>
    rcases h.received_of_awaited hport (r := ⟨.decrypt, raw⟩) (by rw [hphase]; rfl) with hreceived | hreceived
    · simp only [hostStep, hphase, hreceived]
      exact ⟨_, issue_idle hport _ _⟩
    · exact ⟨_, (hostStep_decrypted hphase hreceived).trans (issue_idle hport _ _)⟩
  | awaitVerdict d =>
    rcases h.received_of_awaited hport (r := ⟨.validate, d⟩) (by rw [hphase]; rfl) with hreceived | hreceived
    · simp only [hostStep, hphase, hreceived]
      exact ⟨_, issue_idle hport _ _⟩
    · cases hverdict : validate d with
      | true => exact ⟨_, hostStep_verdict_one hphase (by rw [hreceived, answer, hverdict])⟩
      | false => exact ⟨_, hostStep_verdict_zero hphase (by rw [hreceived, answer, hverdict])⟩
  | ingesting =>
    cases hcomplete : s.reading.complete with
    | true => exact ⟨_, hostStep_ingested_complete hphase hcomplete⟩
    | false => exact ⟨_, hostStep_ingested_incomplete hphase hcomplete⟩

end Host

/-- Settles O58: reset, the core and the consumer always answer a next state, and so does the host
(`hostStep_next`). -/
theorem legalInputsAreNeverRefused : Obligations.LegalInputsAreNeverRefused := by
  intro s h hlegal
  rcases step_cases s with ⟨_, hreset⟩ | ⟨w, _, hcore⟩ | ⟨w, _, _, hconsumer⟩ | ⟨⟨_, hport, _⟩, hhost⟩
  · exact ⟨_, hreset⟩
  · exact ⟨_, hcore⟩
  · exact ⟨_, hconsumer⟩
  · rw [hhost]
    exact hostStep_next h hport hlegal

end Sys2Proof.Machine
end

section
/-! PROOF. A run of requests (R25, R92), the reset that abandons one and the host that repeats it (R83, R84). -/

namespace Sys2Proof.Machine

/-- Settles O19, by induction on the requests: the first is answered in two steps, which leave a quiet, idle host with
the others waiting. -/
theorem runOfRequestsLeavesItsResponsesInOrder : Obligations.RunOfRequestsLeavesItsResponsesInOrder := by
  intro requests
  induction requests with
  | nil =>
    intro s rest _ _ hinputs
    obtain rfl : s.inputs = rest := hinputs
    simp [Host.Core.run]
  | cons r requests ih =>
    intro s rest hquiet hphase hinputs
    have hfirst := run_request hquiet hphase hinputs (2 * requests.length)
    have hothers := ih (s.afterRequest r (programInputs requests ++ rest)) rest hquiet hphase rfl
    refine hfirst.trans (hothers.trans ?_)
    simp [State.afterRequest, List.getLast?_cons]

/-- Settles O43: the waiting reset is what the step takes, and taking it frees the port. -/
theorem resetAbandonsTheOperationInProgress : Obligations.ResetAbandonsTheOperationInProgress := by
  intro s hreset
  rw [step, fetch_reset hreset, State.takeReset]

/-- A host without the response it waits for issues its request once more and stays in its phase (R84, log 18). -/
theorem hostStep_repeats {s : State} {r : Request} (hawaited : s.phase.awaited = some r)
    (hreceived : s.received = none) : hostStep s = issue r s.phase s := by
  cases hphase : s.phase with
  | awaitDecrypt raw | awaitVerdict d =>
    rw [hphase] at hawaited
    cases hawaited
    simp only [hostStep, hphase, hreceived]
  | idle | polling | ingesting =>
    rw [hphase] at hawaited
    cases hawaited

/-- Issuing the request again is a step that fills the port and changes nothing else. -/
theorem step_repeats {s : State} {r : Request} (hquiet : s.Quiescent) (hreceived : s.received = none)
    (hawaited : s.phase.awaited = some r) : step s = .next { s with port := some (encodeRequest r) } := by
  have ⟨_, hport, _⟩ := hquiet
  rw [step_quiescent hquiet, hostStep_repeats hawaited hreceived, issue_idle hport, ← hreceived]

/-- Settles O44: each waiting phase names the request that is repeated. -/
theorem hostRepeatsAnAbandonedRequest : Obligations.HostRepeatsAnAbandonedRequest :=
  fun _ hquiet hreceived =>
    ⟨fun _ hphase => step_repeats hquiet hreceived (congrArg HostPhase.awaited hphase),
      fun _ hphase => step_repeats hquiet hreceived (congrArg HostPhase.awaited hphase)⟩

end Sys2Proof.Machine
end
